-- ==== Sys2Proof/Machine/Assoc.lean ====
section
/-! DEFINITION. Association lists with rising keys: the one canonical form shared by shared memory, the
live buffers and the operations in progress. -/

namespace Sys2Proof.Machine

/-- The value at a key, if it is listed. -/
def Assoc.lookup {α : Type} (k : Nat) : List (Nat × α) → Option α
  | [] => none
  | (j, v) :: l => if j = k then some v else Assoc.lookup k l

/-- The list with key `k` at value `v`, in its place. -/
def Assoc.insert {α : Type} (k : Nat) (v : α) : List (Nat × α) → List (Nat × α)
  | [] => [(k, v)]
  | (j, u) :: l =>
    if k < j then (k, v) :: (j, u) :: l
    else if j = k then (k, v) :: l
    else (j, u) :: Assoc.insert k v l

/-- The list without key `k`. -/
def Assoc.erase {α : Type} (k : Nat) : List (Nat × α) → List (Nat × α)
  | [] => []
  | (j, u) :: l => if j = k then Assoc.erase k l else (j, u) :: Assoc.erase k l

/-- The keys rise strictly, from `lo` on. -/
def Assoc.risingFrom {α : Type} : Nat → List (Nat × α) → Bool
  | _, [] => true
  | lo, (j, _) :: l => decide (lo ≤ j) && Assoc.risingFrom (j + 1) l

/-- The keys rise strictly: no key is listed twice. -/
def Assoc.rising {α : Type} (l : List (Nat × α)) : Bool := Assoc.risingFrom 0 l

end Sys2Proof.Machine
end

