-- ==== Sys2Proof/Word.lean ====
section
/-! DEFINITION. The bit-vector types the spec treats as words (R5, R8, R43): nothing here is signed. -/

namespace Sys2Proof

/-- A register, and a register access (`REG_BITS` = 32, R5). -/
abbrev Word := BitVec 32

/-- The smallest addressable unit of shared memory (R50). -/
abbrev Byte := BitVec 8

/-- A device-visible byte address (`ADDR_BITS` = 64, R5). -/
abbrev Addr := BitVec 64

/-- A buffer handle as it stands in an operation word; 0 encodes `none` (R43). -/
abbrev Handle := BitVec 32

/-- A slot index, register offset, ring size or length operand (`IDX_BITS` = 16, R5, R102). -/
abbrev Idx := BitVec 16

/-- An operation word `W`, and a response word `Resp` (R102). -/
abbrev OpWord := BitVec 64

end Sys2Proof
end

