-- ==== Sys2Proof/Syntax.lean ====
section
/-! DEFINITION. The names the operation words speak of (rings, agents, registers) and the ONE inductive of
instructions: one constructor per row of spec/opcode_table.json (R103, R104). -/

namespace Sys2Proof

/-- The two rings; `W[8]` is 0 for transmit and 1 for receive (R102). -/
inductive Ring where
  | tx
  | rx
  deriving DecidableEq, Repr, Inhabited

/-- Who takes a step (R6): host threads `T(k)`, the interrupt context, the device engine, the
initialisation collaborator, and the environment, which issues HW_RESET (R330). -/
inductive Agent where
  | thread (k : Nat)
  | irq
  | dev
  | init
  | env
  deriving DecidableEq, Repr, Inhabited

/-- The register file's names (R21). -/
inductive Reg where
  | ctrl
  | icr
  | ims
  | rctl
  | tctl
  | rdbal
  | rdbah
  | rdlen
  | rdh
  | rdt
  | rdtr
  | radv
  | tdbal
  | tdbah
  | tdlen
  | tdh
  | tdt
  | ral
  | rah
  | mta (k : BitVec 7)
  deriving DecidableEq, Repr

/-- The operations of R103 and the register accesses of R104. -/
inductive Instr where
  /-- LOCK ring (R83). -/
  | lock (r : Ring)
  /-- UNLOCK ring (R84). -/
  | unlock (r : Ring)
  /-- FENCE (R82). -/
  | fence
  /-- SLOT_STATUS ring, i (R184). -/
  | slotStatus (r : Ring) (i : Idx)
  /-- MARK_HW_OWNED ring, i, c (R182). -/
  | markHwOwned (r : Ring) (i : Idx) (c : Byte)
  /-- INSTALL_BUF ring, i, h (R183). -/
  | installBuf (r : Ring) (i : Idx) (h : Handle)
  /-- TRANSMIT b (R200). -/
  | transmit (b : Handle)
  /-- RX_DRAIN (R220). -/
  | rxDrain
  /-- IRQ_HANDLER (R240). -/
  | irqHandler
  /-- RING_INIT_TX n (R191). -/
  | ringInitTx (n : Idx)
  /-- RING_INIT_RX n (R192). -/
  | ringInitRx (n : Idx)
  /-- RD32 CTRL (R170). -/
  | rd32Ctrl
  /-- WR32 CTRL, v (R171). -/
  | wr32Ctrl (v : Word)
  /-- RD32 ICR (R147). -/
  | rd32Icr
  /-- WR32 ICR, v (R146). -/
  | wr32Icr (v : Word)
  /-- RD32 IMS (R149). -/
  | rd32Ims
  /-- WR32 IMS, v (R148). -/
  | wr32Ims (v : Word)
  /-- RD32 RCTL (R172). -/
  | rd32Rctl
  /-- WR32 RCTL, v (R173). -/
  | wr32Rctl (v : Word)
  /-- RD32 TCTL (R174). -/
  | rd32Tctl
  /-- WR32 TCTL, v (R175). -/
  | wr32Tctl (v : Word)
  /-- RD32 RDBAL (R160). -/
  | rd32Rdbal
  /-- WR32 RDBAL, v (R161). -/
  | wr32Rdbal (v : Word)
  /-- RD32 RDBAH (R162). -/
  | rd32Rdbah
  /-- WR32 RDBAH, v (R163). -/
  | wr32Rdbah (v : Word)
  /-- RD32 RDLEN (R164). -/
  | rd32Rdlen
  /-- WR32 RDLEN, v (R165). -/
  | wr32Rdlen (v : Word)
  /-- RD32 RDH (R152). -/
  | rd32Rdh
  /-- WR32 RDH, v (R153). -/
  | wr32Rdh (v : Word)
  /-- RD32 RDT (R144). -/
  | rd32Rdt
  /-- WR32 RDT, v (R145). -/
  | wr32Rdt (v : Word)
  /-- RD32 RDTR (R166). -/
  | rd32Rdtr
  /-- WR32 RDTR, v (R167). -/
  | wr32Rdtr (v : Word)
  /-- RD32 RADV (R168). -/
  | rd32Radv
  /-- WR32 RADV, v (R169). -/
  | wr32Radv (v : Word)
  /-- RD32 TDBAL (R154). -/
  | rd32Tdbal
  /-- WR32 TDBAL, v (R155). -/
  | wr32Tdbal (v : Word)
  /-- RD32 TDBAH (R156). -/
  | rd32Tdbah
  /-- WR32 TDBAH, v (R157). -/
  | wr32Tdbah (v : Word)
  /-- RD32 TDLEN (R158). -/
  | rd32Tdlen
  /-- WR32 TDLEN, v (R159). -/
  | wr32Tdlen (v : Word)
  /-- RD32 TDH (R150). -/
  | rd32Tdh
  /-- WR32 TDH, v (R151). -/
  | wr32Tdh (v : Word)
  /-- RD32 TDT (R142). -/
  | rd32Tdt
  /-- WR32 TDT, v (R143). -/
  | wr32Tdt (v : Word)
  /-- RD32 RAL (R176). -/
  | rd32Ral
  /-- WR32 RAL, v (R177). -/
  | wr32Ral (v : Word)
  /-- RD32 RAH (R176). -/
  | rd32Rah
  /-- WR32 RAH, v (R177). -/
  | wr32Rah (v : Word)
  /-- RD32 MTA[k] (R176). -/
  | rd32Mta (k : BitVec 7)
  /-- WR32 MTA[k], v (R177). -/
  | wr32Mta (k : BitVec 7) (v : Word)
  /-- DEV_TX_FETCH (R251). -/
  | devTxFetch
  /-- DEV_TX_DONE (R252). -/
  | devTxDone
  /-- DEV_RX_FRAME L (R253); the frame's bytes are a separate input. -/
  | devRxFrame (len : Idx)
  /-- HW_RESET (R330). -/
  | hwReset
  /-- ALLOC headroom (R186). -/
  | alloc (headroom : Idx)
  /-- FREE h (R187). -/
  | free (h : Handle)
  /-- APPEND h, L (R188). -/
  | append (h : Handle) (len : Idx)
  /-- DELIVER h (R189). -/
  | deliver (h : Handle)
  deriving DecidableEq, Repr

end Sys2Proof
end

