-- ==== Sys2Proof/Config.lean ====
section
/-! DEFINITION. What an implementation or the environment fixes: the parameters of R5, the holders of
buffers (R43), the allocator's answers (R186), and the free values, opaque constants with no body, that
stand wherever the spec says "any value" or "unspecified" (93). Nothing can be proved of a free value. -/

namespace Sys2Proof

/-- A run of addresses. -/
structure Region where
  lo : Nat
  size : Nat
  deriving DecidableEq, Repr, Inhabited

namespace Config

/-- Bytes per descriptor, `DESC_BYTES` (R5). -/
def descBytes : Nat := 16

/-- A ring's byte length is a multiple of this, `LEN_ALIGN` (R5, R72). -/
def lenAlign : Nat := 128

/-- Alignment of a ring base address, `BASE_ALIGN` (R5, R72). -/
def baseAlign : Nat := 16

/-- Largest ring size a length register can express, `N_MAX` (R5). -/
def nMax : Nat := 65528

/-- One past the last device-visible address (`ADDR_BITS` = 64, R5). -/
def addrTop : Nat := 2 ^ 64

/-- The bits of CTRL a read shows: none (R22, R170). -/
def ctrlReadable : Word := 0

/-- The OPEN parameters of R5. They are configuration, not state (R53): the model carries them in a
field no step writes, so that a claim about every state is a claim about every choice of them (log 8). -/
structure Params where
  /-- `TX_BASE`, device address of the transmit ring. -/
  txBase : Addr
  /-- `RX_BASE`, device address of the receive ring. -/
  rxBase : Addr
  /-- `RX_BUF_BYTES`, capacity of a receive buffer's payload area. -/
  rxBufBytes : Nat
  /-- `HEADROOM`, the argument of `allocate`. -/
  headroom : Idx
  /-- `REG_BASE`, where the register block sits in the host's address space. -/
  regBase : Addr
  /-- The runs of shared memory the platform provides (R75, R77, log 4). -/
  memory : List Region
  deriving DecidableEq, Repr, Inhabited

/-- The fixture of 95_test_vectors.md section 1, which State.reset takes (log 8), on a platform whose whole
address space is memory (log 4). -/
def fixture : Params :=
  { txBase := 0x80010000, rxBase := 0x80020000, rxBufBytes := 2048, headroom := 0, regBase := 0,
    memory := [{ lo := 0, size := addrTop }] }

end Config

/-- The host address of the register at byte offset `off` (R21, R75). -/
def Config.Params.regAddr (p : Config.Params) (off : Idx) : Addr := p.regBase + off.setWidth 64

/-- Who has a buffer (R43, R290). `caller` carries the agent that holds it, which R200 asks for. -/
inductive Holder where
  | pool
  | caller (a : Agent)
  | ring (r : Ring) (i : Nat)
  | upstream
  deriving DecidableEq, Repr, Inhabited

/-- A buffer the allocator offers: its handle and where its payload area starts (R186). -/
structure Grant where
  handle : Handle
  addr : Addr
  deriving DecidableEq, Repr, Inhabited

namespace Config

/-- FREE VALUE (U9, log 5): a register word whose value the spec leaves unspecified; arguments: the draw, the register's place. -/
opaque freeWord : Nat → Nat → Word

/-- FREE VALUE (U4, R253, log 5, log 7): a byte the device writes with any value; arguments: the draw, the byte's place. -/
opaque freeByte : Nat → Nat → Byte

/-- FREE VALUE (R51, R330, log 5): what shared memory holds after power-on, as a finite list of cells. -/
opaque freeCells : Nat → List (Nat × Byte)

/-- FREE VALUE (U19, log 25): what a slot array holds after CTRL.RST. -/
opaque freeSlots : Nat → Ring → List (Option Handle)

/-- FREE VALUE (U19, log 25): who holds a buffer the rings named before CTRL.RST. -/
opaque freeHolder : Nat → Handle → Holder

/-- FREE VALUE (U8, log 25): whether a buffer stays with its receive slot after AllocationExhausted. -/
opaque freeKept : Nat → Handle → Bool

/-- FREE VALUE (R186, log 6): the allocator's proposal, where the inputs do not give one. -/
opaque freeAnswer : Nat → Option Grant

/-- FREE VALUE (R183, log 16): payload address of a buffer installed while it is in the pool. -/
opaque freeAddr : Nat → Handle → Addr

/-- FREE VALUE (R183, log 16): payload length of a buffer installed while it is in the pool. -/
opaque freeLen : Nat → Handle → Nat

/-- FREE VALUE (R183, log 16): size of the payload area of a buffer installed while it is in the pool. -/
opaque freeArea : Nat → Handle → Nat

end Config

end Sys2Proof
end

