-- ==== Sys2Proof/Decode.lean ====
section
/-! DEFINITION. Decoding of the 64-bit operation word (R102 to R104, R113), of its eight bytes, and of
a register-port transaction (R101); then the encoder, written from the same tables. Decoding is total
and refuses by name. -/

namespace Sys2Proof

/-- Why a word spells no operation (R113 a to c). -/
inductive DecodeError where
  /-- An operation code not in R103 (R113 a). -/
  | unknownOp
  /-- A non-zero reserved field `W[15:9]` (R113 b). -/
  | reservedField
  /-- A non-zero field the operation does not use, or the wrong ring for an operation of one ring (R113 b). -/
  | unusedField
  /-- A register offset that is not a multiple of 4 (R113 c, R178). -/
  | misalignedOffset
  /-- A register offset that matches no register (R113 c, R178). -/
  | unmappedOffset
  /-- Not eight bytes (R114). -/
  | wrongLength
  deriving DecidableEq, Repr

/-- `op = W[7:0]` (R102). -/
def opOf (w : OpWord) : Byte := w.extractLsb' 0 8

/-- `ring = W[8]` (R102). -/
def ringOf (w : OpWord) : Ring := if w.getLsbD 8 then .rx else .tx

/-- `W[15:9]`, reserved (R102). -/
def reservedOf (w : OpWord) : BitVec 7 := w.extractLsb' 9 7

/-- `idx = W[31:16]` (R102). -/
def idxOf (w : OpWord) : Idx := w.extractLsb' 16 16

/-- `arg = W[63:32]` (R102). -/
def argOf (w : OpWord) : Word := w.extractLsb' 32 32

/-- The word with the given fields (R102). -/
def mkWord (op : Byte) (r : Ring) (idx : Idx) (arg : Word) : OpWord :=
  arg ++ idx ++ (0#7 : BitVec 7) ++ (match r with | .tx => 0#1 | .rx => 1#1) ++ op

/-- The register an offset selects, by exact match (R21, R101); MTA matches `off[15:9] = 0b0101001`. -/
def regAt (off : Idx) : Option Reg :=
  if off.extractLsb' 9 7 = 0b0101001#7 ∧ off.extractLsb' 0 2 = 0#2 then some (.mta (off.extractLsb' 2 7))
  else if off = 0x0000 then some .ctrl
  else if off = 0x00C0 then some .icr
  else if off = 0x00D0 then some .ims
  else if off = 0x0100 then some .rctl
  else if off = 0x0400 then some .tctl
  else if off = 0x2800 then some .rdbal
  else if off = 0x2804 then some .rdbah
  else if off = 0x2808 then some .rdlen
  else if off = 0x2810 then some .rdh
  else if off = 0x2818 then some .rdt
  else if off = 0x2820 then some .rdtr
  else if off = 0x282C then some .radv
  else if off = 0x3800 then some .tdbal
  else if off = 0x3804 then some .tdbah
  else if off = 0x3808 then some .tdlen
  else if off = 0x3810 then some .tdh
  else if off = 0x3818 then some .tdt
  else if off = 0x5400 then some .ral
  else if off = 0x5404 then some .rah
  else none

/-- The offset of a register (R21). -/
def Reg.offset : Reg → Idx
  | .ctrl => 0x0000
  | .icr => 0x00C0
  | .ims => 0x00D0
  | .rctl => 0x0100
  | .tctl => 0x0400
  | .rdbal => 0x2800
  | .rdbah => 0x2804
  | .rdlen => 0x2808
  | .rdh => 0x2810
  | .rdt => 0x2818
  | .rdtr => 0x2820
  | .radv => 0x282C
  | .tdbal => 0x3800
  | .tdbah => 0x3804
  | .tdlen => 0x3808
  | .tdh => 0x3810
  | .tdt => 0x3818
  | .ral => 0x5400
  | .rah => 0x5404
  | .mta k => 0b0101001#7 ++ k ++ 0#2

/-- The read of a register (R104). -/
def Reg.read : Reg → Instr
  | .ctrl => .rd32Ctrl
  | .icr => .rd32Icr
  | .ims => .rd32Ims
  | .rctl => .rd32Rctl
  | .tctl => .rd32Tctl
  | .rdbal => .rd32Rdbal
  | .rdbah => .rd32Rdbah
  | .rdlen => .rd32Rdlen
  | .rdh => .rd32Rdh
  | .rdt => .rd32Rdt
  | .rdtr => .rd32Rdtr
  | .radv => .rd32Radv
  | .tdbal => .rd32Tdbal
  | .tdbah => .rd32Tdbah
  | .tdlen => .rd32Tdlen
  | .tdh => .rd32Tdh
  | .tdt => .rd32Tdt
  | .ral => .rd32Ral
  | .rah => .rd32Rah
  | .mta k => .rd32Mta k

/-- The write of a register (R104). -/
def Reg.write (v : Word) : Reg → Instr
  | .ctrl => .wr32Ctrl v
  | .icr => .wr32Icr v
  | .ims => .wr32Ims v
  | .rctl => .wr32Rctl v
  | .tctl => .wr32Tctl v
  | .rdbal => .wr32Rdbal v
  | .rdbah => .wr32Rdbah v
  | .rdlen => .wr32Rdlen v
  | .rdh => .wr32Rdh v
  | .rdt => .wr32Rdt v
  | .rdtr => .wr32Rdtr v
  | .radv => .wr32Radv v
  | .tdbal => .wr32Tdbal v
  | .tdbah => .wr32Tdbah v
  | .tdlen => .wr32Tdlen v
  | .tdh => .wr32Tdh v
  | .tdt => .wr32Tdt v
  | .ral => .wr32Ral v
  | .rah => .wr32Rah v
  | .mta k => .wr32Mta k v

/-- The answer, where a field the operation does not use is zero (R113 b). -/
def whenUnused (unusedZero : Bool) (i : Instr) : Except DecodeError Instr :=
  if unusedZero then .ok i else .error .unusedField

/-- A register access at an offset (R104, R113 c, R178). -/
def accessAt (off : Idx) (access : Reg → Instr) : Except DecodeError Instr :=
  if off.extractLsb' 0 2 ≠ 0#2 then .error .misalignedOffset
  else match regAt off with
    | some r => .ok (access r)
    | none => .error .unmappedOffset

/-- The operation a word spells, by its operation code (R103). -/
def decodeOp (w : OpWord) : Except DecodeError Instr :=
  let r := ringOf w
  let i := idxOf w
  let a := argOf w
  match (opOf w).toNat with
  | 0x01 => whenUnused (i == 0 && a == 0) (.lock r)
  | 0x02 => whenUnused (i == 0 && a == 0) (.unlock r)
  | 0x03 => whenUnused (r == .tx && i == 0 && a == 0) .fence
  | 0x10 => whenUnused (a == 0) (.slotStatus r i)
  | 0x11 => whenUnused (a.extractLsb' 8 24 == 0) (.markHwOwned r i (a.extractLsb' 0 8))
  | 0x12 => .ok (.installBuf r i a)
  | 0x20 => whenUnused (r == .tx && i == 0) (.transmit a)
  | 0x30 => whenUnused (r == .rx && i == 0 && a == 0) .rxDrain
  | 0x40 => whenUnused (r == .tx && i == 0 && a == 0) .irqHandler
  | 0x50 => whenUnused (a == 0) (match r with | .tx => .ringInitTx i | .rx => .ringInitRx i)
  | 0x60 => if r == .tx && a == 0 then accessAt i Reg.read else .error .unusedField
  | 0x61 => if r == .tx then accessAt i (Reg.write a) else .error .unusedField
  | 0x80 => whenUnused (r == .tx && i == 0 && a == 0) .devTxFetch
  | 0x81 => whenUnused (r == .tx && i == 0 && a == 0) .devTxDone
  | 0x82 => whenUnused (r == .rx && a == 0) (.devRxFrame i)
  | 0x8F => whenUnused (r == .tx && i == 0 && a == 0) .hwReset
  | 0x90 => whenUnused (r == .tx && a == 0) (.alloc i)
  | 0x91 => whenUnused (r == .tx && i == 0) (.free a)
  | 0x92 => whenUnused (r == .tx) (.append a i)
  | 0x93 => whenUnused (r == .tx && i == 0) (.deliver a)
  | _ => .error .unknownOp

/-- The instruction an operation word spells, or why it spells none (R102, R103, R113). -/
def decode (w : OpWord) : Except DecodeError Instr :=
  if reservedOf w ≠ 0 then .error .reservedField else decodeOp w

/-- Eight bytes, lowest address first, as an operation word (R71, R114, log 26). -/
def wordOfBytes : List Byte → Option OpWord
  | [b0, b1, b2, b3, b4, b5, b6, b7] => some (b7 ++ b6 ++ b5 ++ b4 ++ b3 ++ b2 ++ b1 ++ b0)
  | _ => none

/-- The instruction a string of bytes spells: the word is eight bytes, no more, no fewer (R114). -/
def decodeBytes (bs : List Byte) : Except DecodeError Instr :=
  match wordOfBytes bs with
  | some w => decode w
  | none => .error .wrongLength

/-- The bytes of an operation word, lowest address first (R71). -/
def bytesOfWord (w : OpWord) : List Byte :=
  [w.extractLsb' 0 8, w.extractLsb' 8 8, w.extractLsb' 16 8, w.extractLsb' 24 8,
    w.extractLsb' 32 8, w.extractLsb' 40 8, w.extractLsb' 48 8, w.extractLsb' 56 8]

/-- The access a register-port transaction performs (R101): the offset alone selects the register. -/
def decodePort (we : Bool) (off : Idx) (wdata : Word) : Except DecodeError Instr :=
  accessAt off (if we then Reg.write wdata else Reg.read)

/-- The instruction the model's decoder reads from an opcode-table row's bits. -/
def decodeTableWord (_nbits w : Nat) : Option Instr :=
  match decodeBytes (bytesOfWord (BitVec.ofNat 64 w)) with
  | .ok i => some i
  | .error _ => none

/-- The word of a register read (R104). -/
def encodeRead (r : Reg) : OpWord := mkWord 0x60 .tx r.offset 0

/-- The word of a register write (R104). -/
def encodeWrite (r : Reg) (v : Word) : OpWord := mkWord 0x61 .tx r.offset v

/-- The operation word of an instruction (R103, R104). -/
def encode : Instr → OpWord
  | .lock r => mkWord 0x01 r 0 0
  | .unlock r => mkWord 0x02 r 0 0
  | .fence => mkWord 0x03 .tx 0 0
  | .slotStatus r i => mkWord 0x10 r i 0
  | .markHwOwned r i c => mkWord 0x11 r i (c.setWidth 32)
  | .installBuf r i h => mkWord 0x12 r i h
  | .transmit b => mkWord 0x20 .tx 0 b
  | .rxDrain => mkWord 0x30 .rx 0 0
  | .irqHandler => mkWord 0x40 .tx 0 0
  | .ringInitTx n => mkWord 0x50 .tx n 0
  | .ringInitRx n => mkWord 0x50 .rx n 0
  | .rd32Ctrl => encodeRead .ctrl
  | .wr32Ctrl v => encodeWrite .ctrl v
  | .rd32Icr => encodeRead .icr
  | .wr32Icr v => encodeWrite .icr v
  | .rd32Ims => encodeRead .ims
  | .wr32Ims v => encodeWrite .ims v
  | .rd32Rctl => encodeRead .rctl
  | .wr32Rctl v => encodeWrite .rctl v
  | .rd32Tctl => encodeRead .tctl
  | .wr32Tctl v => encodeWrite .tctl v
  | .rd32Rdbal => encodeRead .rdbal
  | .wr32Rdbal v => encodeWrite .rdbal v
  | .rd32Rdbah => encodeRead .rdbah
  | .wr32Rdbah v => encodeWrite .rdbah v
  | .rd32Rdlen => encodeRead .rdlen
  | .wr32Rdlen v => encodeWrite .rdlen v
  | .rd32Rdh => encodeRead .rdh
  | .wr32Rdh v => encodeWrite .rdh v
  | .rd32Rdt => encodeRead .rdt
  | .wr32Rdt v => encodeWrite .rdt v
  | .rd32Rdtr => encodeRead .rdtr
  | .wr32Rdtr v => encodeWrite .rdtr v
  | .rd32Radv => encodeRead .radv
  | .wr32Radv v => encodeWrite .radv v
  | .rd32Tdbal => encodeRead .tdbal
  | .wr32Tdbal v => encodeWrite .tdbal v
  | .rd32Tdbah => encodeRead .tdbah
  | .wr32Tdbah v => encodeWrite .tdbah v
  | .rd32Tdlen => encodeRead .tdlen
  | .wr32Tdlen v => encodeWrite .tdlen v
  | .rd32Tdh => encodeRead .tdh
  | .wr32Tdh v => encodeWrite .tdh v
  | .rd32Tdt => encodeRead .tdt
  | .wr32Tdt v => encodeWrite .tdt v
  | .rd32Ral => encodeRead .ral
  | .wr32Ral v => encodeWrite .ral v
  | .rd32Rah => encodeRead .rah
  | .wr32Rah v => encodeWrite .rah v
  | .rd32Mta k => encodeRead (.mta k)
  | .wr32Mta k v => encodeWrite (.mta k) v
  | .devTxFetch => mkWord 0x80 .tx 0 0
  | .devTxDone => mkWord 0x81 .tx 0 0
  | .devRxFrame len => mkWord 0x82 .rx len 0
  | .hwReset => mkWord 0x8F .tx 0 0
  | .alloc headroom => mkWord 0x90 .tx headroom 0
  | .free h => mkWord 0x91 .tx 0 h
  | .append h len => mkWord 0x92 .tx len h
  | .deliver h => mkWord 0x93 .tx 0 h

end Sys2Proof
end

