-- ==== Sys2Proof/Machine/State.lean ====
section
/-! DEFINITION. The state of the DRC (R20 to R49) as plain data, the reasons a step can stop, and the
state after reset (R51). The last seven fields of `State` are the model's own (parameters, schedule,
inputs, free-value counter and trace of outputs), which R53 says are not state of the block. -/

namespace Sys2Proof.Machine

open Sys2Proof

/-- The register file (R21 to R36); every register is 32 bits. -/
structure Regs where
  /-- CTRL (R22): no bit of it ever reads as 1. -/
  ctrl : Word
  /-- ICR, interrupt cause (R23). -/
  icr : Word
  /-- IMS, interrupt mask set (R24). -/
  ims : Word
  /-- RCTL, receive control (R25). -/
  rctl : Word
  /-- TCTL, transmit control (R26). -/
  tctl : Word
  /-- RDBAL, receive ring base, low half (R31). -/
  rdbal : Word
  /-- RDBAH, receive ring base, high half (R31). -/
  rdbah : Word
  /-- RDLEN, receive ring byte length (R32). -/
  rdlen : Word
  /-- RDH, receive head index (R33). -/
  rdh : Word
  /-- RDT, receive tail index (R34). -/
  rdt : Word
  /-- RDTR, receive interrupt delay (R35). -/
  rdtr : Word
  /-- RADV, receive interrupt absolute delay (R35). -/
  radv : Word
  /-- TDBAL, transmit ring base, low half (R27). -/
  tdbal : Word
  /-- TDBAH, transmit ring base, high half (R27). -/
  tdbah : Word
  /-- TDLEN, transmit ring byte length (R28). -/
  tdlen : Word
  /-- TDH, transmit head index (R29). -/
  tdh : Word
  /-- TDT, transmit tail index (R30). -/
  tdt : Word
  /-- RAL, accepted unicast address, low (R36). -/
  ral : Word
  /-- RAH, accepted unicast address, high (R36). -/
  rah : Word
  /-- MTA[0..127], the multicast table (R36, C1). -/
  mta : Vector Word 128
  deriving DecidableEq, Repr

/-- A ring lock (R44). -/
inductive Lock where
  | free
  | held (a : Agent)
  deriving DecidableEq, Repr

/-- A live buffer (R43): fixed payload address, logical length, size of the payload area, holder. -/
structure Buffer where
  addr : Addr
  len : Nat
  area : Nat
  holder : Holder
  deriving DecidableEq, Repr

/-- What the transmit half has fetched and not yet completed (R46). -/
structure Inflight where
  slot : Idx
  addr : Addr
  length : BitVec 16
  cmd : Byte
  bytes : List Byte
  deriving DecidableEq, Repr

/-- The phases of TRANSMIT (R48, R201 to R209). -/
inductive TxPhase where
  | t1 | t2 | t3 | t4 | t5 | t6 | t7 | t8 | t9
  deriving DecidableEq, Repr

/-- A TRANSMIT in progress: its phase and its locals (R48). -/
structure TxCtx where
  phase : TxPhase
  /-- The buffer. -/
  b : Handle
  /-- The slot read in T2. -/
  t : Idx
  /-- The status read in T3. -/
  st : Byte
  /-- The buffer T4 took out of the slot. -/
  old : Option Handle
  deriving DecidableEq, Repr

/-- The phases of RX_DRAIN (R48, R221 to R228). -/
inductive RxPhase where
  | d1 | d2 | d3 | d4 | d5 | d6 | d7 | dx
  deriving DecidableEq, Repr

/-- An RX_DRAIN in progress: its phase and its locals (R48). -/
structure RxCtx where
  phase : RxPhase
  /-- The tail read in D1. -/
  r : Idx
  /-- The slot being drained. -/
  next : Idx
  /-- The status read in D2. -/
  st : Byte
  /-- The replacement buffer of D3. -/
  nb : Option Handle
  /-- The length read in D4. -/
  len : BitVec 16
  /-- The buffer found in D4. -/
  cur : Option Handle
  deriving DecidableEq, Repr

/-- An IRQ_HANDLER in progress: its phase; phase I3 is a whole RX_DRAIN (R48, R240). -/
inductive IrqPhase where
  | i0
  | i1
  | i2
  | i3 (c : RxCtx)
  | i4
  deriving DecidableEq, Repr

/-- The operation an agent has in progress (R48). -/
inductive Op where
  /-- A LOCK that found the lock held and waits for the holder's UNLOCK (R83). -/
  | lockWait (r : Ring)
  | transmit (c : TxCtx)
  | irqHandler (p : IrqPhase)
  deriving DecidableEq, Repr

/-- A frame the wire supplies (R253): its bytes, and the bytes the device writes with any value beside it
(U4), in the order csum low, csum high, errors, special low, special high, status (log 7). -/
structure Frame where
  data : List Byte
  fields : List Byte
  deriving DecidableEq, Repr

/-- What software may overwrite in a slot it has given to the hardware (R87, U7). -/
inductive Part where
  /-- The payload area of the slot's buffer. -/
  | payload
  /-- The slot's descriptor. -/
  | descriptor
  deriving DecidableEq, Repr

/-- One entry of the schedule: what happens next (R7, log 1, log 2, log 22). -/
inductive Event where
  /-- Agent `a` issues the word and its phases run with no step of another agent between them. -/
  | issue (a : Agent) (w : OpWord)
  /-- Agent `a` issues the word; an operation of several phases stops before its first. -/
  | start (a : Agent) (w : OpWord)
  /-- Agent `a` takes the next phase of its operation in progress. -/
  | proceed (a : Agent)
  /-- Agent `a` fills a buffer it holds (R190: "whatever the caller did before TRANSMIT"). -/
  | prepare (a : Agent) (h : Handle) (bytes : List Byte)
  /-- Agent `a` overwrites bytes, from offset `off` on, of slot `i` of a ring while the slot is the hardware's (R87, U7). -/
  | mutate (a : Agent) (r : Ring) (p : Part) (i off : Nat) (bytes : List Byte)
  deriving DecidableEq, Repr

/-- The observable outputs (R257), and the port events of a drain or a construction. -/
inductive Output where
  /-- A frame leaves the block (R252). -/
  | wireTx (bytes : List Byte)
  /-- ALLOC and its answer; `none` is failure (R186). -/
  | alloc (headroom : Idx) (answer : Option Handle)
  /-- FREE (R187). -/
  | free (h : Handle)
  /-- APPEND (R188). -/
  | append (h : Handle) (len : Nat)
  /-- DELIVER (R189). -/
  | deliver (h : Handle)
  /-- The response word of an operation, to the agent that issued it (R102, R300). -/
  | result (a : Agent) (resp : OpWord)
  deriving DecidableEq, Repr

/-- The machine's state. -/
structure State where
  /-- The register file (R20 a). -/
  regs : Regs
  /-- Shared memory (R20 b, R50 b): address and byte, addresses strictly rising, no zero byte (log 4). -/
  mem : List Host.Cell
  /-- `tx_buf` (R20 c, R42). -/
  txBuf : List (Option Handle)
  /-- `rx_buf` (R20 c, R42). -/
  rxBuf : List (Option Handle)
  /-- The live buffers by handle, handles strictly rising (R20 d, R43); an unlisted handle is in the pool. -/
  bufs : List (Nat × Buffer)
  /-- `tx_lock` (R20 e, R44). -/
  txLock : Lock
  /-- `rx_lock` (R20 e, R44). -/
  rxLock : Lock
  /-- `tx_pending` (R20 f, R45). -/
  txPending : Nat
  /-- `tx_inflight` (R20 f, R46). -/
  txInflight : Option Inflight
  /-- `irq_active` (R20 g, R47). -/
  irqActive : Bool
  /-- The operations in progress by agent number, numbers strictly rising (R20 h, R48). -/
  ops : List (Nat × Op)
  /-- `tx_ready` (R20 i, R49). -/
  txReady : Bool
  /-- `rx_ready` (R20 i, R49). -/
  rxReady : Bool
  /-- `failed` (R20 i, R49). -/
  failed : Bool
  /-- MODEL: the OPEN parameters of R5; no step writes them (log 8). -/
  cfg : Config.Params
  /-- MODEL: the agent whose step is being taken (log 24). -/
  issuer : Agent
  /-- MODEL: the schedule still to come (log 2). -/
  inputs : List Event
  /-- MODEL: the frames the wire will supply (log 7). -/
  frames : List Frame
  /-- MODEL: the allocator's answers to come; `none` is failure (log 6). -/
  allocs : List (Option Grant)
  /-- MODEL: how many times free values have been drawn (log 5). -/
  draws : Nat
  /-- MODEL: the outputs so far, oldest first (log 20). -/
  out : List Output
  deriving DecidableEq, Repr

/-- The conditions for which 93 gives the treatment "fault": the machine enters an error state of which
nothing is claimed. Both are unreachable under the rules (R286, R290), so stopping is safe. -/
inductive Fault where
  /-- Raised by FREE, APPEND and DELIVER (alone, or in T4, D4, D5) of a buffer that is in the pool: double
  free (U16, R187 to R189). Safe. -/
  | poolBuffer
  /-- Raised by RX_DRAIN phase D4 on a slot with Done set whose `rx_buf` entry is `none`, and by D5 when D4
  found no buffer (U15, R224). Safe. -/
  | doneSlotEmpty
  deriving DecidableEq, Repr

/-- The inputs the spec gives no meaning (R322, 93): the model rejects the run by name. Each is safe:
the machine stops where the spec says nothing about what happens. -/
inductive Refusal where
  /-- Raised by `exec` for an instruction that has no meaning yet. Safe. -/
  | notModelled (mnemonic : String)
  /-- Raised by `step` for a word that spells no operation (R113, R178). Safe. -/
  | undecodable (e : DecodeError)
  /-- Raised by every operation but HW_RESET while `failed` = 1 (U20, R321). Safe. -/
  | failedState
  /-- Raised by every operation issued from a context that R315's table does not give it (R103, R322, log 9). Safe. -/
  | wrongContext
  /-- Raised by every operation of an agent that has one in progress (R48; for RX_DRAIN, one that is not its handler
  at I3, log 19), and by its filling of a buffer (R190, log 22). Safe. -/
  | agentBusy
  /-- Raised by LOCK, T1 and I2 when the issuer already holds the lock (R83, U21). Safe. -/
  | lockReentry
  /-- Raised by RX_DRAIN when no IRQ_HANDLER of the issuer is in progress (R220, R240, U21, log 19). Safe. -/
  | drainOutsideHandler
  /-- Raised by UNLOCK, SLOT_STATUS, MARK_HW_OWNED, INSTALL_BUF, RX_DRAIN and, after construction, the tail writes
  when the issuer does not hold the ring's lock (R84, R88, R182, R183, R220, U21, log 10). Safe. -/
  | lockNotHeld
  /-- Raised by SLOT_STATUS, MARK_HW_OWNED and INSTALL_BUF when `i >= N` (R113 e). Safe. -/
  | slotOutOfRange
  /-- Raised by path operations, SLOT_STATUS, MARK_HW_OWNED and INSTALL_BUF before their ring is constructed (R322,
  U21, D25, log 28). Safe. -/
  | ringNotConstructed
  /-- Raised by RING_INIT when its ring is constructed already (R191, R192). Safe. -/
  | ringConstructed
  /-- Raised by RING_INIT when a base is misaligned, a ring would lie outside memory, or regions would
  overlap (R72, R75, R76, R77, R322, log 18). Safe. -/
  | ringPlacement
  /-- Raised by SLOT_STATUS, MARK_HW_OWNED, DEV_TX_FETCH and DEV_RX_FRAME of a descriptor or payload that lies, in
  part or whole, outside the memory the platform provides (R76, R77). Safe. -/
  | noMemory
  /-- Raised by ALLOC, alone or in a drain or a construction, whose input grant R186 does not admit: the handle 0
  or a live one, or an area outside memory or over a region in use (R75, R322, log 6). Safe. -/
  | grantInadmissible
  /-- Raised by MARK_HW_OWNED for command bits that do not exist (R113 f, R182, U3). Safe. -/
  | commandBits
  /-- Raised by INSTALL_BUF of a handle that stands in another slot (R183). Safe. -/
  | bufferElsewhere
  /-- Raised by TRANSMIT, FREE, APPEND and DELIVER of `none` (R200, R187, R322). Safe. -/
  | noneHandle
  /-- Raised by TRANSMIT, at its start and again in T6, and by a caller's preparation, of a buffer the issuer does
  not hold (R200, R322). Safe. -/
  | notCallers
  /-- Raised by TRANSMIT, at its start and again in T6, of a payload length of 0 or above 0xFFFF (U5, U17, R200). Safe. -/
  | payloadLength
  /-- Raised by an overwriting of a slot that is not the hardware's, or of the payload of an empty one (U7, log 22). Safe. -/
  | notCommitted
  /-- Raised by APPEND, alone or in D4, of more than RX_BUF_BYTES, which R188 requires it not to exceed (D23). Safe. -/
  | appendLength
  /-- Raised by no instruction: by software's filling of a buffer beyond its payload area (R43) and its overwriting
  beyond the payload area or the descriptor it names (U7, log 22), which are inputs of the model's own. Safe. -/
  | areaExceeded
  /-- Raised by INSTALL_BUF of a handle in the pool when memory has no place for a payload area of RX_BUF_BYTES apart
  from every region in use, so that any would overlap (R75, R322, log 16). Safe. -/
  | noRoom
  /-- Raised by RD32 ICR (U1, R147). Safe. -/
  | icrRead
  /-- Raised by a register write with a 1 in a reserved bit (U14, D3, D25, R113 d, R322; R148, R155, R159, R161, R165,
  R171, R173, R175); all ones to ICR is the one such write admitted (U14, log 11). Safe. -/
  | reservedBits
  /-- Raised by a non-zero write to RDTR or RADV (U10, R167, R169). Safe. -/
  | delayNonZero
  /-- Raised by a tail write out of range (U6, R143, R145). Safe. -/
  | tailOutOfRange
  /-- Raised by a tail write that commits more slots than are free (U18, R143). Safe. -/
  | overCommit
  /-- Raised by a write to a base, length or head register of a constructed ring (U12). Safe. -/
  | geometryFrozen
  /-- Raised by a non-zero write to a head register (U12, R151, R153). Safe. -/
  | headNonZero
  /-- Raised by setting EN before its ring is constructed or with a non-zero delay (R173, R175). Safe. -/
  | enableTooEarly
  /-- Raised by CTRL.RST while an operation is in progress or a lock is held (U19, R331). Safe. -/
  | resetTooEarly
  /-- Raised by IRQ_HANDLER while `irq_active` = 1 (U21, R241). Safe. -/
  | handlerActive
  /-- Raised by DEV_TX_FETCH of a descriptor without EOP, with reserved command bits or with length 0 (U3, U5, R251). Safe. -/
  | badDescriptor
  /-- Raised by DEV_RX_FRAME of 0 bytes or more than RX_BUF_BYTES (U11, R253). Safe. -/
  | frameLength
  deriving DecidableEq, Repr

/-- The register file after reset (R51); base and filter registers, which R51 leaves unspecified, are 0 (log 3). -/
def Regs.reset : Regs :=
  { ctrl := 0, icr := 0, ims := 0, rctl := 0, tctl := 0, rdbal := 0, rdbah := 0, rdlen := 0, rdh := 0,
    rdt := 0, rdtr := 0, radv := 0, tdbal := 0, tdbah := 0, tdlen := 0, tdh := 0, tdt := 0, ral := 0,
    rah := 0, mta := Vector.replicate 128 0 }

/-- The machine right after power-on reset (R51, R330). -/
def State.reset : State :=
  { regs := Regs.reset, mem := [], txBuf := [], rxBuf := [], bufs := [], txLock := .free, rxLock := .free,
    txPending := 0, txInflight := none, irqActive := false, ops := [], txReady := false, rxReady := false,
    failed := false, cfg := Config.fixture, issuer := .env, inputs := [], frames := [], allocs := [],
    draws := 0, out := [] }

end Sys2Proof.Machine
end

