-- ==== Sys2Proof/Machine/Operands.lean ====
section
/-! DEFINITION. Operand assembly: ring arithmetic (R10, R180), from registers to ring geometry (R110),
descriptor addresses (R76, R105, R108, R111), handles, little-endian byte strings (R71), response words
(R102, R112). -/

namespace Sys2Proof.Machine

open Sys2Proof

/-- `NEXT(i, N) = (i + 1) mod N` (R180). -/
def ringNext (i n : Nat) : Nat := (i + 1) % n

/-- `DIST(a, b, N) = (b - a) mod N` (R180), over the naturals: `b + (N - a mod N)`. -/
def ringDist (a b n : Nat) : Nat := (b + (n - a % n)) % n

/-- The index field, bits 15:0, of a head or tail register (R29, R110). -/
def indexField (v : Word) : Nat := (v.extractLsb' 0 16).toNat

/-- The length field, bits 19:0, of a length register (R28). -/
def lengthField (v : Word) : Nat := (v.extractLsb' 0 20).toNat

/-- An index as a register holds it. -/
def indexWord (i : Nat) : Word := BitVec.ofNat 32 i

/-- `TDBA` or `RDBA`, the high half in the high bits (R27, R31, R110). -/
def ringBase (r : Ring) (s : State) : Addr :=
  match r with
  | .tx => s.regs.tdbah ++ s.regs.tdbal
  | .rx => s.regs.rdbah ++ s.regs.rdbal

/-- The byte length of a ring, as its length register says (R28, R32). -/
def ringBytes (r : Ring) (s : State) : Nat :=
  match r with
  | .tx => lengthField s.regs.tdlen
  | .rx => lengthField s.regs.rdlen

/-- `N_TX` or `N_RX` (R110). -/
def ringSize (r : Ring) (s : State) : Nat := ringBytes r s / Config.descBytes

/-- The tail index, `REG[TDT][15:0]` or `REG[RDT][15:0]` (R110). -/
def tailIndex (r : Ring) (s : State) : Nat :=
  match r with
  | .tx => indexField s.regs.tdt
  | .rx => indexField s.regs.rdt

/-- The head index, `REG[TDH][15:0]` or `REG[RDH][15:0]` (R110). -/
def headIndex (r : Ring) (s : State) : Nat :=
  match r with
  | .tx => indexField s.regs.tdh
  | .rx => indexField s.regs.rdh

/-- The ring is constructed (R49). -/
def ringReady (r : Ring) (s : State) : Bool :=
  match r with
  | .tx => s.txReady
  | .rx => s.rxReady

/-- Byte offset of `addr` in a descriptor of either ring (R105, R108). -/
def offAddr : Nat := 0
/-- Byte offset of `length` in a descriptor of either ring (R105, R108). -/
def offLength : Nat := 8
/-- Byte offset of `cso` in a transmit descriptor (R105). -/
def offCso : Nat := 10
/-- Byte offset of `csum` in a receive descriptor (R108). -/
def offCsum : Nat := 10
/-- Byte offset of `cmd` in a transmit descriptor (R105). -/
def offCmd : Nat := 11
/-- Byte offset of `status` in a descriptor of either ring (R105, R108). -/
def offStatus : Nat := 12
/-- Byte offset of `css` in a transmit descriptor (R105). -/
def offCss : Nat := 13
/-- Byte offset of `errors` in a receive descriptor (R108). -/
def offErrors : Nat := 13
/-- Byte offset of `special` in a descriptor of either ring (R105, R108). -/
def offSpecial : Nat := 14

/-- The device address `base + 16 i + off` of a descriptor's field (R76). -/
def descAddr (r : Ring) (i off : Nat) (s : State) : Addr :=
  ringBase r s + BitVec.ofNat 64 (Config.descBytes * i + off)

/-- The buffer a handle operand names; 0 encodes `none` (R43, R183). -/
def handleArg (h : Handle) : Option Handle := if h = 0 then none else some h

/-- A buffer-slot's content as the value of a response (R183). -/
def handleValue : Option Handle → Word
  | none => 0
  | some h => h

/-- A byte string as an unsigned integer, the lowest address least significant (R9, R71). -/
def leNat : List Byte → Nat
  | [] => 0
  | b :: bs => b.toNat + 256 * leNat bs

/-- The low `8 n` bits of `v` as `n` bytes, the lowest address least significant (R9, R71). -/
def leBytes : Nat → Nat → List Byte
  | 0, _ => []
  | n + 1, v => BitVec.ofNat 8 v :: leBytes n (v / 256)

/-- Result codes (R112). -/
def codeOk : Byte := 0
/-- `RingBusy` (R112, R301). -/
def codeRingBusy : Byte := 1
/-- `AllocationExhausted` (R112, R302). -/
def codeAllocationExhausted : Byte := 2
/-- `MalformedGeometry` (R112, R303). -/
def codeMalformedGeometry : Byte := 3

/-- The response word: `Resp[7:0]` the code, `Resp[31:8]` zero, `Resp[63:32]` the value (R102). -/
def respWord (code : Byte) (value : Word) : OpWord := value ++ (0#24 : BitVec 24) ++ code

/-- A number per agent, by which operations in progress are listed (R48). -/
def agentKey : Agent → Nat
  | .irq => 0
  | .dev => 1
  | .init => 2
  | .env => 3
  | .thread k => k + 4

end Sys2Proof.Machine
end

