-- ==== Sys2Proof/Machine/Contexts.lean ====
section
/-! DEFINITION. The execution contexts of the host (R315): which agents issue which operation. Nothing is banked
per context and nothing in the block enforces it; an operation from another context is refused (R322). -/

namespace Sys2Proof.Machine

open Sys2Proof

/-- The contexts of R315's table; `path`, the two that run the paths; the environment (R330); and `host`, every host
agent, for RD32 (R140) and, a DESIGN CHOICE, ALLOC (log 9). -/
inductive AgentClass where
  | host
  | path
  | thread
  | irq
  | init
  | dev
  | env
  deriving DecidableEq, Repr

/-- The agent is of the class (R6, R315). -/
def AgentClass.allows : AgentClass → Agent → Bool
  | .host, .thread _ => true
  | .host, .irq => true
  | .host, .init => true
  | .path, .thread _ => true
  | .path, .irq => true
  | .thread, .thread _ => true
  | .irq, .irq => true
  | .init, .init => true
  | .dev, .dev => true
  | .env, .env => true
  | _, _ => false

/-- An agent of the class: `T1` where a thread is one (R115). -/
def AgentClass.agent : AgentClass → Agent
  | .host => .thread 1
  | .path => .thread 1
  | .thread => .thread 1
  | .irq => .irq
  | .init => .init
  | .dev => .dev
  | .env => .env

/-- The context a ring's lock and slots belong to: threads transmit, the interrupt context receives (R315, R348). -/
def ringClass : Ring → AgentClass
  | .tx => .thread
  | .rx => .irq

/-- The context that writes a ring's tail: the initialisation collaborator before construction, the ring's own
after it (R315, log 9). -/
def tailClass (r : Ring) (s : State) : AgentClass := if ringReady r s then ringClass r else .init

/-- The context an instruction is issued from (R103, R315, log 9). R315's table gives ALLOC to the interrupt context
and, in RING_INIT_RX, to INIT (R192); a thread too holds buffers (R43), and only ALLOC brings one out of the pool
(R290), so every host agent may issue it (DESIGN CHOICE, log 9). -/
def classOf (i : Instr) (s : State) : AgentClass :=
  match i with
  | .lock r => ringClass r
  | .unlock r => ringClass r
  | .fence => .path
  | .slotStatus r _ => ringClass r
  | .markHwOwned r _ _ => ringClass r
  | .installBuf r _ _ => ringClass r
  | .transmit _ => .thread
  | .rxDrain => .irq
  | .irqHandler => .irq
  | .ringInitTx _ => .init
  | .ringInitRx _ => .init
  | .rd32Ctrl => .host
  | .wr32Ctrl _ => .init
  | .rd32Icr => .host
  | .wr32Icr _ => .irq
  | .rd32Ims => .host
  | .wr32Ims _ => .init
  | .rd32Rctl => .host
  | .wr32Rctl _ => .init
  | .rd32Tctl => .host
  | .wr32Tctl _ => .init
  | .rd32Rdbal => .host
  | .wr32Rdbal _ => .init
  | .rd32Rdbah => .host
  | .wr32Rdbah _ => .init
  | .rd32Rdlen => .host
  | .wr32Rdlen _ => .init
  | .rd32Rdh => .host
  | .wr32Rdh _ => .init
  | .rd32Rdt => .host
  | .wr32Rdt _ => tailClass .rx s
  | .rd32Rdtr => .host
  | .wr32Rdtr _ => .init
  | .rd32Radv => .host
  | .wr32Radv _ => .init
  | .rd32Tdbal => .host
  | .wr32Tdbal _ => .init
  | .rd32Tdbah => .host
  | .wr32Tdbah _ => .init
  | .rd32Tdlen => .host
  | .wr32Tdlen _ => .init
  | .rd32Tdh => .host
  | .wr32Tdh _ => .init
  | .rd32Tdt => .host
  | .wr32Tdt _ => tailClass .tx s
  | .rd32Ral => .host
  | .wr32Ral _ => .init
  | .rd32Rah => .host
  | .wr32Rah _ => .init
  | .rd32Mta _ => .host
  | .wr32Mta _ _ => .init
  | .devTxFetch => .dev
  | .devTxDone => .dev
  | .devRxFrame _ => .dev
  | .hwReset => .env
  | .alloc _ => .host
  | .free _ => .thread
  | .append _ _ => .irq
  | .deliver _ => .irq

/-- The agent that issues an instruction when none is named (R115, log 2). -/
def defaultAgent (i : Instr) (s : State) : Agent := (classOf i s).agent

end Sys2Proof.Machine
end

