-- ==== Sys2Proof/Machine/Flags.lean ====
section
/-! DEFINITION. The flags of R39: Done, report status and end of packet in descriptors, the enables, the
interrupt cause and mask and the derived `irq` line. -/

namespace Sys2Proof.Machine

open Sys2Proof

/-- `DD`, bit 0 of a status byte; no other bit is tested (R107, R109, R351). -/
def ddSet (status : Byte) : Bool := status.getLsbD 0

/-- The status byte with `DD` set (R252). -/
def withDd (status : Byte) : Byte := status ||| 0x01

/-- `EOP`, bit 0 of a command byte (R106). -/
def eopSet (cmd : Byte) : Bool := cmd.getLsbD 0

/-- `RS`, bit 3 of a command byte (R106). -/
def rsSet (cmd : Byte) : Bool := cmd.getLsbD 3

/-- `RS | EOP`, the only command TRANSMIT writes (R106, R205). -/
def cmdRsEop : Byte := 0x09

/-- `EN`, bit 1 of RCTL or TCTL (R25, R26). -/
def enSet (ctl : Word) : Bool := ctl.getLsbD 1

/-- `irq = ((ICR and IMS) != 0)`, a level that is not stored (R47, R306). -/
def irqLine (s : State) : Bool := s.regs.icr &&& s.regs.ims != 0

/-- Write-one-to-clear (R146). -/
def clearCauses (icr v : Word) : Word := icr &&& ~~~v

/-- Write-one-to-set (R148). -/
def setMask (ims v : Word) : Word := ims ||| v

/-- The packet-arrival cause becomes pending (R253, R307). -/
def raiseArrival (icr : Word) : Word := icr ||| 0x80

end Sys2Proof.Machine
end

