-- ==== Sys2Proof/WellFormed.lean ====
section
/-! DEFINITION. Well-formed instructions: the checks of R113 (d), (f) and (g), R187 to R189, R200 and
R253 that an operation word's operands decide alone, whatever the state. A word that fails one spells
no operation: its meaning refuses it in every state. -/

namespace Sys2Proof

/-- Bits `RS` and `EOP`, the only command bits there are (R106). -/
def cmdMask : Byte := 0x09

/-- Bit 26 of CTRL, `RST` (R22). -/
def ctrlRst : Word := 0x04000000

/-- Bit 7 of ICR and IMS, `RXT0` (R23, R24). -/
def rxt0 : Word := 0x80

/-- Bit 1 of RCTL and TCTL, `EN` (R25, R26). -/
def ctlEn : Word := 0x2

/-- Command bits that exist on the ring: RS and EOP on transmit, none on receive (R113 f, R182). -/
def cmdOk (r : Ring) (c : Byte) : Bool :=
  match r with
  | .tx => c &&& ~~~cmdMask == 0
  | .rx => c == 0

/-- A ring base low word: bits 3:0 are 0 (`BASE_ALIGN` = 16, R27). -/
def baseLowOk (v : Word) : Bool := v &&& 0xF == 0

/-- A ring length: bits 31:20 and 6:0 are 0 (R28). -/
def lengthOk (v : Word) : Bool := v &&& 0xFFF0007F == 0

/-- An index register's value: bits 31:16 are 0 (R30). -/
def indexOk (v : Word) : Bool := v &&& 0xFFFF0000 == 0

/-- A value WR32 ICR takes: no bit but `RXT0`, or all ones, the one write with reserved bits set that U14
admits (R146, log 11). -/
def causeWriteOk (v : Word) : Bool := v &&& ~~~rxt0 == 0 || v == 0xFFFFFFFF

/-- The operands are ones the spec gives a meaning to in some state. -/
def WellFormed : Instr → Bool
  | .markHwOwned r _ c => cmdOk r c
  | .transmit b => b != 0
  | .free h => h != 0
  | .append h _ => h != 0
  | .deliver h => h != 0
  | .devRxFrame len => len != 0
  | .wr32Ctrl v => v == 0 || v == ctrlRst
  | .wr32Icr v => causeWriteOk v
  | .wr32Ims v => v &&& ~~~rxt0 == 0
  | .wr32Rctl v => v == 0 || v == ctlEn
  | .wr32Tctl v => v == 0 || v == ctlEn
  | .wr32Rdbal v => baseLowOk v
  | .wr32Tdbal v => baseLowOk v
  | .wr32Rdlen v => lengthOk v
  | .wr32Tdlen v => lengthOk v
  | .wr32Rdh v => v == 0
  | .wr32Tdh v => v == 0
  | .wr32Rdt v => indexOk v
  | .wr32Tdt v => indexOk v
  | .wr32Rdtr v => v == 0
  | .wr32Radv v => v == 0
  | .lock _ => true
  | .unlock _ => true
  | .fence => true
  | .slotStatus _ _ => true
  | .installBuf _ _ _ => true
  | .rxDrain => true
  | .irqHandler => true
  | .ringInitTx _ => true
  | .ringInitRx _ => true
  | .rd32Ctrl => true
  | .rd32Icr => true
  | .rd32Ims => true
  | .rd32Rctl => true
  | .rd32Tctl => true
  | .rd32Rdbal => true
  | .rd32Rdbah => true
  | .rd32Rdlen => true
  | .rd32Rdh => true
  | .rd32Rdt => true
  | .rd32Rdtr => true
  | .rd32Radv => true
  | .rd32Tdbal => true
  | .rd32Tdbah => true
  | .rd32Tdlen => true
  | .rd32Tdh => true
  | .rd32Tdt => true
  | .rd32Ral => true
  | .rd32Rah => true
  | .wr32Rdbah _ => true
  | .wr32Tdbah _ => true
  | .wr32Ral _ => true
  | .wr32Rah _ => true
  | .rd32Mta _ => true
  | .wr32Mta _ _ => true
  | .devTxFetch => true
  | .devTxDone => true
  | .hwReset => true
  | .alloc _ => true

end Sys2Proof
end

