-- ==== Sys2Proof/Machine/Ops.lean ====
section
/-! DEFINITION. The named operations over memory, locks, slot arrays, buffers, operations in progress and
outputs; the admission test every operation starts with; the shared error result and Failed state. -/

namespace Sys2Proof.Machine

open Sys2Proof

/-- What a step or a phase answers. -/
abbrev Result := Host.Outcome State Fault Refusal

/-- Go on from a next state; a fault or a refusal ends the whole. -/
def andThen (r : Result) (k : State → Result) : Result :=
  match r with
  | .next s => k s
  | .fault f => .fault f
  | .refused x => .refused x

/-! Shared memory (R9, R50 b, R71, R73). -/

/-- A byte of memory; an unlisted byte reads 0 (log 4). -/
def Memory.read (m : List Host.Cell) (a : Nat) : Byte := (Assoc.lookup a m).getD 0

/-- A byte written; writing 0 removes the entry, so that equal memories are equal lists. -/
def Memory.write (m : List Host.Cell) (a : Nat) (b : Byte) : List Host.Cell :=
  if b = 0 then Assoc.erase a m else Assoc.insert a b m

/-- The canonical form: addresses strictly rising and inside the address space, no zero byte listed. -/
def Memory.wf (m : List Host.Cell) : Bool :=
  Assoc.rising m && m.all (fun c => decide (c.1 < Config.addrTop) && c.2 != 0)

/-- The `n` bytes from address `a` on. Addresses are 64 bits wide, so a run past the top would go on at 0; no
operation makes one, since each first tests that what it reads or writes is platform memory (R76, R77, log 4). -/
def Memory.readBytes (m : List Host.Cell) : Addr → Nat → List Byte
  | _, 0 => []
  | a, n + 1 => Memory.read m a.toNat :: Memory.readBytes m (a + 1) n

/-- A byte string stored from address `a` on. -/
def Memory.writeBytes (m : List Host.Cell) : Addr → List Byte → List Host.Cell
  | _, [] => m
  | a, b :: bs => Memory.writeBytes (Memory.write m a.toNat b) (a + 1) bs

/-- The memory a list of cells describes, in canonical form; a later cell wins. -/
def Memory.ofCells : List (Nat × Byte) → List Host.Cell
  | [] => []
  | (a, b) :: l => Memory.write (Memory.ofCells l) (a % Config.addrTop) b

/-- `MemRead(addr, n)` (R9). -/
def State.load (a : Addr) (n : Nat) (s : State) : Nat := leNat (Memory.readBytes s.mem a n)

/-- One byte of shared memory. -/
def State.byteAt (a : Addr) (s : State) : Byte := Memory.read s.mem a.toNat

/-- A byte string stored in shared memory. -/
def State.storeBytes (a : Addr) (bs : List Byte) (s : State) : State :=
  { s with mem := Memory.writeBytes s.mem a bs }

/-- `MemWrite(addr, n, v)` (R9). -/
def State.store (a : Addr) (n v : Nat) (s : State) : State := s.storeBytes a (leBytes n v)

/-! Descriptor fields (R111). -/

/-- `D(i).status` of either ring. -/
def descStatus (r : Ring) (i : Nat) (s : State) : Byte := s.byteAt (descAddr r i offStatus s)

/-- `TXD(i).cmd` (R105). -/
def txdCmd (i : Nat) (s : State) : Byte := s.byteAt (descAddr .tx i offCmd s)

/-- `D(i).addr` of either ring. -/
def descPayload (r : Ring) (i : Nat) (s : State) : Addr := BitVec.ofNat 64 (s.load (descAddr r i offAddr s) 8)

/-- `D(i).length` of either ring. -/
def descLength (r : Ring) (i : Nat) (s : State) : BitVec 16 :=
  BitVec.ofNat 16 (s.load (descAddr r i offLength s) 2)

/-- A descriptor's 128-bit image `D` (R105, R108). -/
def descImage (r : Ring) (i : Nat) (s : State) : BitVec 128 :=
  BitVec.ofNat 128 (s.load (descAddr r i offAddr s) 16)

/-- `D(i).status <- v`. -/
def setDescStatus (r : Ring) (i : Nat) (v : Byte) (s : State) : State :=
  s.storeBytes (descAddr r i offStatus s) [v]

/-- `TXD(i).cmd <- v`. -/
def setTxdCmd (i : Nat) (v : Byte) (s : State) : State := s.storeBytes (descAddr .tx i offCmd s) [v]

/-- `D(i).addr <- a`. -/
def setDescPayload (r : Ring) (i : Nat) (a : Addr) (s : State) : State :=
  s.store (descAddr r i offAddr s) 8 a.toNat

/-- `D(i).length <- n`, its low 16 bits. -/
def setDescLength (r : Ring) (i n : Nat) (s : State) : State := s.store (descAddr r i offLength s) 2 n

/-! Outputs and results (R102, R257, R300). -/

/-- One more observable output. -/
def State.emit (o : Output) (s : State) : State := { s with out := s.out ++ [o] }

/-- The response of an operation, to the agent that issued it. -/
def State.respond (code : Byte) (value : Word) (s : State) : State :=
  s.emit (.result s.issuer (respWord code value))

/-- An operation ends with code OK and no value. -/
def done (s : State) : Result := .next (s.respond codeOk 0)

/-- A fatal error result: the code is returned and the block enters the Failed state (R302, R303, R321). -/
def fatal (code : Byte) (s : State) : State := { s with failed := true }.respond code 0

/-! Locks (R44, R83, R84). -/

/-- A ring's lock. -/
def State.lockOf (r : Ring) (s : State) : Lock :=
  match r with
  | .tx => s.txLock
  | .rx => s.rxLock

/-- A ring's lock set. -/
def State.setLock (r : Ring) (l : Lock) (s : State) : State :=
  match r with
  | .tx => { s with txLock := l }
  | .rx => { s with rxLock := l }

/-- The issuer holds the ring's lock. -/
def State.holdsLock (r : Ring) (s : State) : Bool := s.lockOf r == .held s.issuer

/-- LOCK: go on with the lock held when it is free; answer `waiting` when another agent holds it; the
locks are not re-entrant (R83). -/
def lockThen (r : Ring) (waiting s : State) (k : State → Result) : Result :=
  match s.lockOf r with
  | .free => k (s.setLock r (.held s.issuer))
  | .held a => if a = s.issuer then .refused .lockReentry else .next waiting

/-- UNLOCK by the holder (R84). -/
def unlockThen (r : Ring) (s : State) (k : State → Result) : Result :=
  if s.holdsLock r then k (s.setLock r .free) else .refused .lockNotHeld

/-! Operations in progress (R48). -/

/-- The operation an agent has in progress. -/
def State.opOf (a : Agent) (s : State) : Option Op := Assoc.lookup (agentKey a) s.ops

/-- The issuer's operation in progress, set. -/
def State.setOp (o : Op) (s : State) : State := { s with ops := Assoc.insert (agentKey s.issuer) o s.ops }

/-- The issuer's operation has ended. -/
def State.clearOp (s : State) : State := { s with ops := Assoc.erase (agentKey s.issuer) s.ops }

/-! Slot arrays and buffers (R42, R43, R290). -/

/-- A ring's buffer-ownership slots. -/
def State.slots (r : Ring) (s : State) : List (Option Handle) :=
  match r with
  | .tx => s.txBuf
  | .rx => s.rxBuf

/-- A ring's buffer-ownership slots, set. -/
def State.setSlots (r : Ring) (l : List (Option Handle)) (s : State) : State :=
  match r with
  | .tx => { s with txBuf := l }
  | .rx => { s with rxBuf := l }

/-- `tx_buf[i]` or `rx_buf[i]`. -/
def State.slotAt (r : Ring) (i : Nat) (s : State) : Option Handle := (s.slots r).getD i none

/-- `buf[i] <- x`. -/
def State.setSlot (r : Ring) (i : Nat) (x : Option Handle) (s : State) : State :=
  s.setSlots r ((s.slots r).set i x)

/-- The buffer a handle names; `none` is a buffer in the pool (log 16). -/
def State.bufOf (h : Handle) (s : State) : Option Buffer := Assoc.lookup h.toNat s.bufs

/-- `holder(h)` (R43). -/
def State.holderOf (h : Handle) (s : State) : Holder :=
  match s.bufOf h with
  | some b => b.holder
  | none => .pool

/-- A buffer listed under its handle. -/
def State.setBuf (h : Handle) (b : Buffer) (s : State) : State :=
  { s with bufs := Assoc.insert h.toNat b s.bufs }

/-- A buffer back in the pool. -/
def State.dropBuf (h : Handle) (s : State) : State := { s with bufs := Assoc.erase h.toNat s.bufs }

/-! Regions of shared memory (R75 to R77). -/

/-- Two regions share no byte. -/
def regionsApart (a b : Region) : Bool :=
  a.size == 0 || b.size == 0 || decide (a.lo + a.size ≤ b.lo) || decide (b.lo + b.size ≤ a.lo)

/-- The first region lies within the second. -/
def regionWithin (a b : Region) : Bool := decide (b.lo ≤ a.lo) && decide (a.lo + a.size ≤ b.lo + b.size)

/-- A region does not pass the top of the address space (R76) and is memory the platform provides (R77). -/
def inMemory (p : Config.Params) (a : Region) : Bool :=
  decide (a.lo + a.size ≤ Config.addrTop) && p.memory.any (regionWithin a)

/-- Where a run of `n` bytes from an address on lies. -/
def runAt (a : Addr) (n : Nat) : Region := { lo := a.toNat, size := n }

/-- Where a ring lies (R75). -/
def ringRegion (r : Ring) (s : State) : Region := runAt (ringBase r s) (ringBytes r s)

/-- The ring's descriptors lie in memory (R76, R77). -/
def ringInMemory (r : Ring) (s : State) : Bool := inMemory s.cfg (ringRegion r s)

/-- The regions in use: constructed rings and payload areas of live buffers. -/
def liveRegions (s : State) : List Region :=
  (if s.txReady then [ringRegion .tx s] else []) ++ (if s.rxReady then [ringRegion .rx s] else [])
    ++ s.bufs.map (fun e => runAt e.2.addr e.2.area)

/-- A region is memory and shares no byte with the others (R75, R77). -/
def placeable (p : Config.Params) (a : Region) (others : List Region) : Bool :=
  inMemory p a && others.all (regionsApart a)

/-- A new payload area may stand at `a` beside the regions in use and `extra`, a ring under construction (R75). -/
def areaPlaceable (extra : List Region) (a : Addr) (n : Nat) (s : State) : Bool :=
  placeable s.cfg (runAt a n) (extra ++ liveRegions s)

/-- The buffer object of a handle in the pool as the free values give it (log 16). -/
def freeObject (h : Handle) (s : State) : Buffer :=
  { addr := Config.freeAddr s.draws h, len := Config.freeLen s.draws h, area := Config.freeArea s.draws h, holder := .pool }

/-- R43, R75 and R186 allow the buffer: its length is within its area, which has at least RX_BUF_BYTES, is memory and
is apart from every region in use. -/
def admissible (b : Buffer) (s : State) : Bool :=
  decide (b.len ≤ b.area) && decide (s.cfg.rxBufBytes ≤ b.area) && areaPlaceable [] b.addr b.area s

/-- An address at which a payload area of RX_BUF_BYTES fits: the start of a run of memory or the end of a region in
use; where none of these is one there is none at all. -/
def spareAddress (s : State) : Option Addr :=
  ((s.cfg.memory.map Region.lo ++ (liveRegions s).map (fun a => a.lo + a.size)).map (BitVec.ofNat 64)).find?
    (fun a => areaPlaceable [] a s.cfg.rxBufBytes s)

/-- The buffer object of a handle in the pool. No rule states its address, length or area: they are free values, any
that are admissible, and where the drawn ones are not, an empty buffer at a spare address stands for them (DESIGN
CHOICE, log 16). `none`: memory has no place for one. -/
def pooledBuffer (h : Handle) (s : State) : Option Buffer :=
  if admissible (freeObject h s) s then some (freeObject h s)
  else (spareAddress s).map fun a => { addr := a, len := 0, area := s.cfg.rxBufBytes, holder := .pool }

/-- The buffer object a handle names, live or in the pool (R43). -/
def State.bufferAt (h : Handle) (s : State) : Buffer := (s.bufOf h).getD (freeObject h s)

/-- Go on with the buffer live: a handle in the pool becomes live, which is refused where a payload area would have to
overlap a region in use (R75, R322, log 16). -/
def liveThen (h : Handle) (s : State) (k : State → Result) : Result :=
  match s.bufOf h with
  | some _ => k s
  | none =>
    match pooledBuffer h s with
    | some b => k { s.setBuf h b with draws := s.draws + 1 }
    | none => .refused .noRoom

/-- `holder(h) <- ring slot`, of a live buffer (R183). -/
def State.installHolder (h : Handle) (r : Ring) (i : Nat) (s : State) : State :=
  match s.bufOf h with
  | some b => s.setBuf h { b with holder := .ring r i }
  | none => s

/-- `payload_address(h)` (R190). -/
def State.payloadAddress (h : Handle) (s : State) : Addr := (s.bufferAt h).addr

/-- `payload_length(h)` (R190). -/
def State.payloadLength (h : Handle) (s : State) : Nat := (s.bufferAt h).len

/-- The handle stands in the list at a place other than `skip`; places are counted from `j`. -/
def namedBy (h : Handle) (skip : Option Nat) : Nat → List (Option Handle) → Bool
  | _, [] => false
  | j, x :: l => (x == some h && skip != some j) || namedBy h skip (j + 1) l

/-- The handle is in a slot other than slot `i` of ring `r` (R183: a buffer is in exactly one slot). -/
def inOtherSlot (h : Handle) (r : Ring) (i : Nat) (s : State) : Bool :=
  match r with
  | .tx => namedBy h (some i) 0 s.txBuf || namedBy h none 0 s.rxBuf
  | .rx => namedBy h none 0 s.txBuf || namedBy h (some i) 0 s.rxBuf

/-! The collaborator ports (R186 to R189). -/

/-- What the allocator proposes next: the input if there is one, else a free value (log 6). -/
def proposal (s : State) : Option Grant :=
  match s.allocs with
  | a :: _ => a
  | [] => Config.freeAnswer s.draws

/-- The proposal used up. -/
def State.nextProposal (s : State) : State :=
  match s.allocs with
  | _ :: l => { s with allocs := l }
  | [] => { s with draws := s.draws + 1 }

/-- What R186 requires of an answer: a handle that is not `none` and not live, and a payload area in memory,
apart from every live buffer, both rings and the ring under construction (`extra`). -/
def grantOk (extra : List Region) (g : Grant) (s : State) : Bool :=
  g.handle != 0 && (s.bufOf g.handle).isNone && areaPlaceable extra g.addr s.cfg.rxBufBytes s

/-- The input grant is one R186 does not admit: an overlap is refused (R75, R322). -/
def badGrant (extra : List Region) (s : State) : Bool :=
  match s.allocs with
  | some g :: _ => !grantOk extra g s
  | _ => false

/-- The allocator's answer: the proposal where R186 admits it, else failure (log 6). -/
def allocAnswer (extra : List Region) (s : State) : Option Grant :=
  match proposal s with
  | some g => if grantOk extra g s then some g else none
  | none => none

/-- A buffer fresh from ALLOC, held by `a` (R43, R186). -/
def freshBuffer (g : Grant) (a : Agent) (s : State) : Buffer :=
  { addr := g.addr, len := 0, area := s.cfg.rxBufBytes, holder := .caller a }

/-- ALLOC (R186): the state after the answer. -/
def allocate (extra : List Region) (headroom : Idx) (s : State) : State :=
  match allocAnswer extra s with
  | some g => (s.nextProposal.setBuf g.handle (freshBuffer g s.issuer s)).emit (.alloc headroom (some g.handle))
  | none => s.nextProposal.emit (.alloc headroom none)

/-- The handle ALLOC returns; `none` is failure. -/
def allocHandle (extra : List Region) (s : State) : Option Handle := (allocAnswer extra s).map Grant.handle

/-- ALLOC, then go on with its answer (R186). -/
def allocThen (extra : List Region) (headroom : Idx) (s : State) (k : Option Handle → State → Result) : Result :=
  if badGrant extra s then .refused .grantInadmissible else k (allocHandle extra s) (allocate extra headroom s)

/-- FREE (R187): the buffer goes to the pool; a buffer already there is a double free (U16). -/
def freeBuf (h : Handle) (s : State) : Result :=
  match s.bufOf h with
  | none => .fault .poolBuffer
  | some _ => .next ((s.dropBuf h).emit (.free h))

/-- FREE of what a slot held: a no-op if it was empty (R204). -/
def freeSlotBuf (x : Option Handle) (s : State) : Result :=
  match x with
  | none => .next s
  | some h => freeBuf h s

/-- APPEND (R188): `payload_length(h) <- n`; no byte moves. It requires `n <= RX_BUF_BYTES` (R188, D23); every live
buffer has an area of at least that (R43, R186). -/
def appendBuf (h : Handle) (n : Nat) (s : State) : Result :=
  if s.cfg.rxBufBytes < n then .refused .appendLength
  else match s.bufOf h with
    | none => .fault .poolBuffer
    | some b => .next ((s.setBuf h { b with len := n }).emit (.append h n))

/-- DELIVER (R189): the buffer goes upstream. -/
def deliverBuf (h : Handle) (s : State) : Result :=
  match s.bufOf h with
  | none => .fault .poolBuffer
  | some b => .next ((s.setBuf h { b with holder := .upstream }).emit (.deliver h))

/-! The ring operations (R182, R183). -/

/-- MARK_HW_OWNED (R182); before construction it is refused, as every ring primitive is (D25, U9, log 28). -/
def markOwned (r : Ring) (i : Nat) (c : Byte) (s : State) : Result :=
  if !s.holdsLock r then .refused .lockNotHeld
  else if !ringReady r s then .refused .ringNotConstructed
  else if ringSize r s ≤ i then .refused .slotOutOfRange
  else if !ringInMemory r s then .refused .noMemory
  else if !cmdOk r c then .refused .commandBits
  else match r with
    | .tx => .next (setDescStatus .tx i 0 (setTxdCmd i c s))
    | .rx => .next (setDescStatus .rx i 0 s)

/-- INSTALL_BUF (R183): the state after the swap. -/
def installSlot (r : Ring) (i : Nat) (x : Option Handle) (s : State) : Result :=
  if !s.holdsLock r then .refused .lockNotHeld
  else if !ringReady r s then .refused .ringNotConstructed
  else if ringSize r s ≤ i then .refused .slotOutOfRange
  else match x with
    | none => .next (s.setSlot r i none)
    | some h =>
      if inOtherSlot h r i s then .refused .bufferElsewhere
      else liveThen h s (fun t => .next ((t.setSlot r i (some h)).installHolder h r i))

/-! Admission (R48, R315, R321, R322). -/

/-- The admission test: the block has not failed (U20), the issuer's context is the right one (R315), and the
issuer has no operation in progress (R48). R6 (d), R191 and R333 have INIT run once, before every other agent;
R200, R311 and R140 name only the ready flags: nothing but `tx_ready` and `rx_ready` orders the agents here, so
a step of INIT after another agent's, or the reverse, is admitted (DESIGN CHOICE, log 30). -/
def admission (c : AgentClass) (s : State) (r : Result) : Result :=
  if s.failed then .refused .failedState
  else if !c.allows s.issuer then .refused .wrongContext
  else if (s.opOf s.issuer).isSome then .refused .agentBusy
  else r

end Sys2Proof.Machine
end

