-- ==== Sys2Proof/Machine/Construct.lean ====
section
/-! DEFINITION. Construction of the rings by the initialisation collaborator (R191, R192): the refusals, then
geometry, then (receive) one ALLOC per slot; a fatal result sets `failed` (R302, R303, R305). -/

namespace Sys2Proof.Machine

open Sys2Proof

/-- A ring size that is malformed (R303): 0, above `N_MAX`, or not a multiple of 128 bytes. -/
def malformed (n : Nat) : Bool :=
  n == 0 || decide (Config.nMax < n) || (Config.descBytes * n) % Config.lenAlign != 0

/-- Where a ring of `n` slots is to lie. -/
def newRing (base : Addr) (n : Nat) : Region := runAt base (Config.descBytes * n)

/-- The base is aligned, and the ring is memory and overlaps no region in use (R72, R75 to R77, log 18). -/
def ringPlaceable (base : Addr) (n : Nat) (s : State) : Bool :=
  base.toNat % Config.baseAlign == 0 && placeable s.cfg (newRing base n) (liveRegions s)

/-- A descriptor with every field 0 (R52). -/
def clearDesc (r : Ring) (i : Nat) (s : State) : State := s.store (descAddr r i 0 s) Config.descBytes 0

/-- Transmit descriptors `i`, `i + 1`, ... (`k` of them): all fields 0, then Done pre-set (R191). -/
def clearTxds : Nat → Nat → State → State
  | 0, _, s => s
  | k + 1, i, s => clearTxds k (i + 1) (setDescStatus .tx i 0x01 (clearDesc .tx i s))

/-- The registers of a transmit ring under construction (R191). -/
def txGeometry (n : Nat) (s : State) : State :=
  { s with regs := { s.regs with
      tdbal := s.cfg.txBase.extractLsb' 0 32, tdbah := s.cfg.txBase.extractLsb' 32 32
      tdlen := BitVec.ofNat 32 (Config.descBytes * n) } }

/-- The transmit ring constructed (R191). -/
def buildTx (n : Nat) (s : State) : State :=
  let s := clearTxds n 0 (txGeometry n s)
  { s with
    regs := { s.regs with tdh := 0, tdt := 0 }
    txBuf := List.replicate n none
    txPending := 0, txInflight := none, txReady := true }

/-- RING_INIT_TX n (R191); a refusal comes before the error result (R305). -/
def execRingInitTx (n : Idx) (s : State) : Result :=
  admission .init s
    (if s.txReady then .refused .ringConstructed
     else if !ringPlaceable s.cfg.txBase n.toNat s then .refused .ringPlacement
     else if malformed n.toNat then .next (fatal codeMalformedGeometry s)
     else done (buildTx n.toNat s))

/-- The registers of a receive ring under construction, and its slot array, still without slots (R192). -/
def rxGeometry (n : Nat) (s : State) : State :=
  { s with
    regs := { s.regs with
      rdbal := s.cfg.rxBase.extractLsb' 0 32, rdbah := s.cfg.rxBase.extractLsb' 32 32
      rdlen := BitVec.ofNat 32 (Config.descBytes * n) }
    rxBuf := [] }

/-- Receive slot `i` armed with buffer `h` (R192). -/
def armSlot (i : Nat) (h : Handle) (s : State) : State :=
  let s := clearDesc .rx i s
  let s := { s with rxBuf := s.rxBuf ++ [some h] }.installHolder h .rx i
  setDescStatus .rx i 0x00 (setDescPayload .rx i (s.payloadAddress h) s)

/-- The buffers already allocated when construction fails: each in the pool or with its receive slot (U8). -/
def abandonBuffers (s : State) : State :=
  { s with
    bufs := s.bufs.filter (fun e =>
      !namedBy (BitVec.ofNat 32 e.1) none 0 s.rxBuf || Config.freeKept s.draws (BitVec.ofNat 32 e.1))
    draws := s.draws + 1 }

/-- The receive ring constructed (R192). -/
def finishRx (n : Nat) (s : State) : State :=
  { s with regs := { s.regs with rdh := 0, rdt := indexWord (n - 1) }, rxReady := true }

/-- Receive slots `i`, `i + 1`, ... (`k` of them) populated in ascending order, then the ring of `n` slots finished;
an ALLOC that answers failure ends it with AllocationExhausted (R192, R302). -/
def populateRx (n : Nat) : Nat → Nat → State → Result
  | 0, _, s => done (finishRx n s)
  | k + 1, i, s =>
    allocThen [newRing s.cfg.rxBase n] s.cfg.headroom s (fun a t =>
      match a with
      | some h => populateRx n k (i + 1) (armSlot i h t)
      | none => .next (fatal codeAllocationExhausted (abandonBuffers t)))

/-- RING_INIT_RX n (R192); a refusal comes before the error result (R305). -/
def execRingInitRx (n : Idx) (s : State) : Result :=
  admission .init s
    (if s.rxReady then .refused .ringConstructed
     else if !ringPlaceable s.cfg.rxBase n.toNat s then .refused .ringPlacement
     else if malformed n.toNat then .next (fatal codeMalformedGeometry s)
     else populateRx n.toNat n.toNat 0 (rxGeometry n.toNat s))

end Sys2Proof.Machine
end

