-- ==== Sys2Proof/Machine/Device.lean ====
section
/-! DEFINITION. The device engine's events (R251 to R253). An event that is not enabled has no step: the
block's state is unchanged (R254, log 13). -/

namespace Sys2Proof.Machine

open Sys2Proof

/-- DEV_TX_FETCH is enabled (R251); `failed` is tested on admission. -/
def fetchEnabled (s : State) : Bool :=
  enSet s.regs.tctl && s.txReady && decide (0 < s.txPending) && s.txInflight.isNone

/-- The descriptor and payload of slot `h`, as one fetch (R251, R85). -/
def fetched (h : Nat) (s : State) : Inflight :=
  { slot := BitVec.ofNat 16 h
    addr := descPayload .tx h s
    length := descLength .tx h s
    cmd := txdCmd h s
    bytes := Memory.readBytes s.mem (descPayload .tx h s) (descLength .tx h s).toNat }

/-- A descriptor the engine is refused to process: reserved command bits, no EOP, or length 0 (U3, U5). -/
def badFetch (f : Inflight) : Bool := !cmdOk .tx f.cmd || !eopSet f.cmd || f.length == 0

/-- What the descriptor names as payload is memory the platform provides (R77). -/
def payloadInMemory (f : Inflight) (s : State) : Bool := inMemory s.cfg (runAt f.addr f.length.toNat)

/-- DEV_TX_FETCH (R251). -/
def execDevTxFetch (s : State) : Result :=
  admission .dev s
    (if !fetchEnabled s then .next s
     else if badFetch (fetched (headIndex .tx s) s) then .refused .badDescriptor
     else if !payloadInMemory (fetched (headIndex .tx s) s) s then .refused .noMemory
     else done { s with txInflight := some (fetched (headIndex .tx s) s) })

/-- DD set in the slot's status if the descriptor asked for the report (R252). -/
def reportStatus (f : Inflight) (s : State) : State :=
  if rsSet f.cmd then setDescStatus .tx f.slot.toNat (withDd (descStatus .tx f.slot.toNat s)) s else s

/-- The slot in flight completes (R252). -/
def completeTx (f : Inflight) (s : State) : State :=
  let s := reportStatus f (s.emit (.wireTx f.bytes))
  { s with
    regs := { s.regs with tdh := indexWord (ringNext f.slot.toNat (ringSize .tx s)) }
    txPending := s.txPending - 1
    txInflight := none }

/-- DEV_TX_DONE (R252), while the transmit half is enabled (R254, log 15). -/
def execDevTxDone (s : State) : Result :=
  admission .dev s
    (match s.txInflight with
     | none => .next s
     | some f => if enSet s.regs.tctl then done (completeTx f s) else .next s)

/-- The arriving frame as the inputs give it; without one nothing of it is given (log 7). -/
def arriving (s : State) : Frame := s.frames.headD { data := [], fields := [] }

/-- The place of the free value for byte `k` of an arriving frame; places 0 to 5 are the written fields'. -/
def framePlace (k : Nat) : Nat := k + 6

/-- Byte `k` of the arriving frame: the wire's, or a free value where the inputs do not give it (log 7). -/
def frameByte (s : State) (k : Nat) : Byte := (arriving s).data.getD k (Config.freeByte s.draws (framePlace k))

/-- The `k`-th byte the device writes with any value (U4): the input's, or a free value. -/
def fieldByte (s : State) (k : Nat) : Byte := (arriving s).fields.getD k (Config.freeByte s.draws k)

/-- The first bytes of the arriving frame. -/
def frameBytes (s : State) (n : Nat) : List Byte := (List.range n).map (frameByte s)

/-- The arriving frame has passed; free values drawn for it are used up. -/
def State.frameGone (s : State) : State := { s with frames := s.frames.tail, draws := s.draws + 1 }

/-- The receive window is empty (R253, R284). -/
def windowEmpty (s : State) : Bool := ringDist (headIndex .rx s) (tailIndex .rx s) (ringSize .rx s) == 0

/-- The fields of slot `h` the device writes with any value (U4): csum, errors and special, taken from
the arriving frame of state `f`. -/
def writeFillers (h : Nat) (f s : State) : State :=
  let s := s.storeBytes (descAddr .rx h offCsum s) [fieldByte f 0, fieldByte f 1]
  let s := s.storeBytes (descAddr .rx h offErrors s) [fieldByte f 2]
  s.storeBytes (descAddr .rx h offSpecial s) [fieldByte f 3, fieldByte f 4]

/-- The status the device writes: DD set, bits 7:1 any value (U4, R253). -/
def rxStatus (f : State) : Byte := withDd (fieldByte f 5)

/-- Slot `h` filled with the arriving frame, in the order payload, length, fillers, status (R253, R81). -/
def fillSlot (h n : Nat) (f : State) : State :=
  let s := f.storeBytes (descPayload .rx h f) (frameBytes f n)
  let s := setDescLength .rx h n s
  let s := writeFillers h f s
  setDescStatus .rx h (rxStatus f) s

/-- The frame is received: slot filled, then head, then the cause (R253). -/
def receiveFrame (n : Nat) (s : State) : State :=
  let h := headIndex .rx s
  let s := fillSlot h n s
  { s with regs := { s.regs with
      rdh := indexWord (ringNext h (ringSize .rx s)), icr := raiseArrival s.regs.icr } }

/-- The first `n` bytes of the payload area the head's descriptor names are memory (R77). -/
def targetInMemory (n : Nat) (s : State) : Bool := inMemory s.cfg (runAt (descPayload .rx (headIndex .rx s) s) n)

/-- DEV_RX_FRAME L (R253). A frame of 0 bytes or longer than a buffer is not offered (U11, log 23). -/
def execDevRxFrame (len : Idx) (s : State) : Result :=
  admission .dev s
    (if len = 0 ∨ s.cfg.rxBufBytes < len.toNat then .refused .frameLength
     else if !(enSet s.regs.rctl && s.rxReady) then .next s.frameGone
     else if windowEmpty s then done s.frameGone
     else if !targetInMemory len.toNat s then .refused .noMemory
     else done (receiveFrame len.toNat s).frameGone)

end Sys2Proof.Machine
end

