-- ==== Sys2Proof/Machine/Ports.lean ====
section
/-! DEFINITION. The collaborator port events ALLOC, FREE, APPEND and DELIVER (R186 to R189) as instructions. -/

namespace Sys2Proof.Machine

open Sys2Proof

/-- A port operand that must name a buffer (R187 to R189). -/
def whenHandle (h : Handle) (r : Result) : Result := if h = 0 then .refused .noneHandle else r

/-- The response to ALLOC: the handle, or code 2 (R103, R186). -/
def State.respondAlloc (answer : Option Handle) (s : State) : State :=
  match answer with
  | some h => s.respond codeOk h
  | none => s.respond codeAllocationExhausted 0

/-- ALLOC (R186). R103 and R186 give `idx = HEADROOM` and say nothing of another value: every value is admitted
and goes to the allocator as it is (DESIGN CHOICE, log 31); it is admitted from every host agent (DESIGN CHOICE,
log 9). -/
def execAlloc (headroom : Idx) (s : State) : Result :=
  admission .host s (allocThen [] headroom s (fun a t => .next (t.respondAlloc a)))

/-- FREE h (R187), by a thread (R315). -/
def execFree (h : Handle) (s : State) : Result :=
  admission .thread s (whenHandle h (andThen (freeBuf h s) done))

/-- APPEND h, L (R188), by the interrupt context (R315). -/
def execAppend (h : Handle) (len : Idx) (s : State) : Result :=
  admission .irq s (whenHandle h (andThen (appendBuf h len.toNat s) done))

/-- DELIVER h (R189), by the interrupt context (R315). -/
def execDeliver (h : Handle) (s : State) : Result :=
  admission .irq s (whenHandle h (andThen (deliverBuf h s) done))

end Sys2Proof.Machine
end

