-- ==== Sys2Proof/Machine/RingPrims.lean ====
section
/-! DEFINITION. The ring operations of R182 to R184 as instructions. -/

namespace Sys2Proof.Machine

open Sys2Proof

/-- SLOT_STATUS ring, i (R184): the status byte, under the ring's lock (U21, log 10), of a constructed ring (D25, U9,
log 28). -/
def execSlotStatus (r : Ring) (i : Idx) (s : State) : Result :=
  admission (ringClass r) s
    (if !s.holdsLock r then .refused .lockNotHeld
     else if !ringReady r s then .refused .ringNotConstructed
     else if ringSize r s ≤ i.toNat then .refused .slotOutOfRange
     else if !ringInMemory r s then .refused .noMemory
     else .next (s.respond codeOk ((descStatus r i.toNat s).setWidth 32)))

/-- MARK_HW_OWNED ring, i, c (R182). -/
def execMarkHwOwned (r : Ring) (i : Idx) (c : Byte) (s : State) : Result :=
  admission (ringClass r) s (andThen (markOwned r i.toNat c s) done)

/-- INSTALL_BUF ring, i, h (R183): returns the previous occupant. -/
def execInstallBuf (r : Ring) (i : Idx) (h : Handle) (s : State) : Result :=
  admission (ringClass r) s
    (andThen (installSlot r i.toNat (handleArg h) s)
      (fun t => .next (t.respond codeOk (handleValue (s.slotAt r i.toNat)))))

end Sys2Proof.Machine
end

