-- ==== Sys2Proof/Machine/Reset.lean ====
section
/-! DEFINITION. HW_RESET (R330) and the block reset of CTRL.RST (R331). -/

namespace Sys2Proof.Machine

open Sys2Proof

/-- The register file after a reset that runs: R51's values, and free values where R51 says
"unspecified" (U9, log 5); `d` is the draw. -/
def regsAfterReset (d : Nat) : Regs :=
  { Regs.reset with
    tdbal := Config.freeWord d 0, tdbah := Config.freeWord d 1, rdbal := Config.freeWord d 2,
    rdbah := Config.freeWord d 3, ral := Config.freeWord d 4, rah := Config.freeWord d 5,
    mta := Vector.ofFn (fun k => Config.freeWord d (6 + k.val)) }

/-- HW_RESET (R330): every piece of state takes R51's value, operations in progress are abandoned,
rings, slot arrays and buffers do not exist, memory is unspecified. Admitted even in the Failed state,
which only it leaves (R321, log 12). -/
def hwReset (s : State) : State :=
  { s with
    regs := regsAfterReset s.draws
    mem := Memory.ofCells (Config.freeCells s.draws)
    txBuf := [], rxBuf := [], bufs := []
    txLock := .free, rxLock := .free
    txPending := 0, txInflight := none
    irqActive := false, ops := []
    txReady := false, rxReady := false, failed := false
    draws := s.draws + 1 }

/-- A buffer after CTRL.RST: one the rings named has any holder, any other is as it was (U19, log 25). -/
def rstBuffer (s : State) (e : Nat × Buffer) : Option (Nat × Buffer) :=
  let h : Handle := BitVec.ofNat 32 e.1
  if namedBy h none 0 s.txBuf || namedBy h none 0 s.rxBuf then
    match Config.freeHolder s.draws h with
    | .pool => none
    | x => some (e.1, { e.2 with holder := x })
  else some e

/-- The block reset (R331): registers, `tx_pending`, `tx_inflight` and the ready flags take R51's values;
locks, `irq_active`, `failed` and memory are unchanged; the slot arrays of constructed rings and the
holders of what they named are any value (U19). -/
def blockReset (s : State) : State :=
  { s with
    regs := regsAfterReset s.draws
    txPending := 0, txInflight := none
    txReady := false, rxReady := false
    txBuf := if s.txReady then Config.freeSlots s.draws .tx else s.txBuf
    rxBuf := if s.rxReady then Config.freeSlots s.draws .rx else s.rxBuf
    bufs := s.bufs.filterMap (rstBuffer s)
    draws := s.draws + 1 }

/-- No operation is in progress and both locks are free (R331, U19). -/
def quiet (s : State) : Bool := s.ops.isEmpty && s.txLock == .free && s.rxLock == .free

/-- HW_RESET: issued by the environment at any time (R330). -/
def execHwReset (s : State) : Result :=
  if s.issuer = .env then .next (hwReset s) else .refused .wrongContext

end Sys2Proof.Machine
end

