-- ==== Sys2Proof/Machine/Registers.lean ====
section
/-! DEFINITION. The register accesses RD32 and WR32 (R140 to R177). Each write has its own rule, applied
atomically with its side effects; a write its rule refuses changes nothing (R141). -/

namespace Sys2Proof.Machine

open Sys2Proof

/-- RD32: the value of the register's own rule, code 0, no side effect (R140). -/
def readReg (v : Word) (s : State) : Result := admission .host s (.next (s.respond codeOk v))

/-- WR32: the register's own write rule, code 0, no value (R141), from the context R315 gives it. -/
def writeReg (c : AgentClass) (w : State → Result) (s : State) : Result := admission c s (andThen (w s) done)

/-- An index register's value as a read returns it, `zext_32(REG[x][15:0])` (R142, R144, R150, R152). -/
def indexRead (v : Word) : Word := (v.extractLsb' 0 16).setWidth 32

/-! The tail registers (R142 to R145). -/

/-- WR32 TDT (R143): the commit; after construction under the ring's lock (R88, R343, U21, log 10). -/
def wrTdt (v : Word) (s : State) : Result :=
  if !s.txReady then
    if v = 0 then .next { s with regs := { s.regs with tdt := 0 } } else .refused .tailOutOfRange
  else if !s.holdsLock .tx then .refused .lockNotHeld
  else if !indexOk v || ringSize .tx s ≤ indexField v then .refused .tailOutOfRange
  else if ringSize .tx s < s.txPending + ringDist (tailIndex .tx s) (indexField v) (ringSize .tx s) then
    .refused .overCommit
  else
    .next { s with
      regs := { s.regs with tdt := v }
      txPending := s.txPending + ringDist (tailIndex .tx s) (indexField v) (ringSize .tx s) }

/-- WR32 RDT (R145): the same values before and after construction; after it under the ring's lock (R88, U21, log 10). -/
def wrRdt (v : Word) (s : State) : Result :=
  if s.rxReady && !s.holdsLock .rx then .refused .lockNotHeld
  else if !indexOk v || ringSize .rx s ≤ indexField v then .refused .tailOutOfRange
  else .next { s with regs := { s.regs with rdt := v } }

/-! The interrupt registers (R146 to R149). -/

/-- The causes written as 1 are cleared (R146). -/
def acknowledge (v : Word) (s : State) : State :=
  { s with regs := { s.regs with icr := clearCauses s.regs.icr v } }

/-- WR32 ICR (R146): write-one-to-clear, with bit 7 only or all ones (U14, log 11). -/
def wrIcr (v : Word) (s : State) : Result := if causeWriteOk v then .next (acknowledge v s) else .refused .reservedBits

/-- WR32 IMS (R148): write-one-to-set, bit 7 only. -/
def wrIms (v : Word) (s : State) : Result :=
  if v &&& ~~~rxt0 ≠ 0 then .refused .reservedBits
  else .next { s with regs := { s.regs with ims := setMask s.regs.ims v } }

/-! Heads, geometry, delays, controls (R150 to R175). -/

/-- A write admitted only before its ring is constructed (R49, U12). -/
def beforeReady (r : Ring) (s : State) (w : Result) : Result :=
  if ringReady r s then .refused .geometryFrozen else w

/-- WR32 TDH (R151). -/
def wrTdh (v : Word) (s : State) : Result :=
  beforeReady .tx s (if v = 0 then .next { s with regs := { s.regs with tdh := 0 } } else .refused .headNonZero)

/-- WR32 RDH (R153). -/
def wrRdh (v : Word) (s : State) : Result :=
  beforeReady .rx s (if v = 0 then .next { s with regs := { s.regs with rdh := 0 } } else .refused .headNonZero)

/-- WR32 TDBAL (R155). -/
def wrTdbal (v : Word) (s : State) : Result :=
  beforeReady .tx s
    (if baseLowOk v then .next { s with regs := { s.regs with tdbal := v } } else .refused .reservedBits)

/-- WR32 TDBAH (R157). -/
def wrTdbah (v : Word) (s : State) : Result :=
  beforeReady .tx s (.next { s with regs := { s.regs with tdbah := v } })

/-- WR32 TDLEN (R159). -/
def wrTdlen (v : Word) (s : State) : Result :=
  beforeReady .tx s
    (if lengthOk v then .next { s with regs := { s.regs with tdlen := v } } else .refused .reservedBits)

/-- WR32 RDBAL (R161). -/
def wrRdbal (v : Word) (s : State) : Result :=
  beforeReady .rx s
    (if baseLowOk v then .next { s with regs := { s.regs with rdbal := v } } else .refused .reservedBits)

/-- WR32 RDBAH (R163). -/
def wrRdbah (v : Word) (s : State) : Result :=
  beforeReady .rx s (.next { s with regs := { s.regs with rdbah := v } })

/-- WR32 RDLEN (R165). -/
def wrRdlen (v : Word) (s : State) : Result :=
  beforeReady .rx s
    (if lengthOk v then .next { s with regs := { s.regs with rdlen := v } } else .refused .reservedBits)

/-- WR32 RDTR (R167). -/
def wrRdtr (v : Word) (s : State) : Result :=
  if v = 0 then .next { s with regs := { s.regs with rdtr := 0 } } else .refused .delayNonZero

/-- WR32 RADV (R169). -/
def wrRadv (v : Word) (s : State) : Result :=
  if v = 0 then .next { s with regs := { s.regs with radv := 0 } } else .refused .delayNonZero

/-- WR32 CTRL (R171): RST resets the block when nothing is in progress (R331); 0 has no effect. -/
def wrCtrl (v : Word) (s : State) : Result :=
  if v = 0 then .next s
  else if v = ctrlRst then (if quiet s then .next (blockReset s) else .refused .resetTooEarly)
  else .refused .reservedBits

/-- WR32 RCTL (R173): EN only with the ring constructed and both delays 0. -/
def wrRctl (v : Word) (s : State) : Result :=
  if v = 0 then .next { s with regs := { s.regs with rctl := v } }
  else if v = ctlEn then
    if s.rxReady && s.regs.rdtr == 0 && s.regs.radv == 0 then .next { s with regs := { s.regs with rctl := v } }
    else .refused .enableTooEarly
  else .refused .reservedBits

/-- WR32 TCTL (R175): EN only with the ring constructed. -/
def wrTctl (v : Word) (s : State) : Result :=
  if v = 0 then .next { s with regs := { s.regs with tctl := v } }
  else if v = ctlEn then
    if s.txReady then .next { s with regs := { s.regs with tctl := v } } else .refused .enableTooEarly
  else .refused .reservedBits

/-! The instructions. -/

/-- RD32 ICR is refused (R147, U1): the spec does not say what a read returns or whether it clears causes. -/
def execRd32Icr (s : State) : Result := admission .host s (.refused .icrRead)

/-- RD32 CTRL (R170): no bit of CTRL reads as 1. -/
def execRd32Ctrl (s : State) : Result := readReg (s.regs.ctrl &&& Config.ctrlReadable) s

/-- RD32 MTA[k] (R176). -/
def execRd32Mta (k : BitVec 7) (s : State) : Result := readReg (s.regs.mta.get ⟨k.toNat, k.isLt⟩) s

/-- WR32 MTA[k] (R177). -/
def execWr32Mta (k : BitVec 7) (v : Word) (s : State) : Result :=
  writeReg .init (fun t => .next { t with regs := { t.regs with mta := t.regs.mta.set k.toNat v k.isLt } }) s

/-- WR32 RAL (R177). -/
def execWr32Ral (v : Word) (s : State) : Result :=
  writeReg .init (fun t => .next { t with regs := { t.regs with ral := v } }) s

/-- WR32 RAH (R177). -/
def execWr32Rah (v : Word) (s : State) : Result :=
  writeReg .init (fun t => .next { t with regs := { t.regs with rah := v } }) s

/-- WR32 ICR (R146). -/
def execWr32Icr (v : Word) (s : State) : Result := writeReg .irq (wrIcr v) s

/-- RD32 IMS (R149). -/
def execRd32Ims (s : State) : Result := readReg s.regs.ims s

/-- RD32 RCTL (R172). -/
def execRd32Rctl (s : State) : Result := readReg s.regs.rctl s

/-- RD32 TCTL (R174). -/
def execRd32Tctl (s : State) : Result := readReg s.regs.tctl s

/-- RD32 RDBAL (R160). -/
def execRd32Rdbal (s : State) : Result := readReg s.regs.rdbal s

/-- RD32 RDBAH (R162). -/
def execRd32Rdbah (s : State) : Result := readReg s.regs.rdbah s

/-- RD32 RDLEN (R164). -/
def execRd32Rdlen (s : State) : Result := readReg s.regs.rdlen s

/-- RD32 RDH (R152). -/
def execRd32Rdh (s : State) : Result := readReg (indexRead s.regs.rdh) s

/-- RD32 RDT (R144). -/
def execRd32Rdt (s : State) : Result := readReg (indexRead s.regs.rdt) s

/-- RD32 RDTR (R166). -/
def execRd32Rdtr (s : State) : Result := readReg s.regs.rdtr s

/-- RD32 RADV (R168). -/
def execRd32Radv (s : State) : Result := readReg s.regs.radv s

/-- RD32 TDBAL (R154). -/
def execRd32Tdbal (s : State) : Result := readReg s.regs.tdbal s

/-- RD32 TDBAH (R156). -/
def execRd32Tdbah (s : State) : Result := readReg s.regs.tdbah s

/-- RD32 TDLEN (R158). -/
def execRd32Tdlen (s : State) : Result := readReg s.regs.tdlen s

/-- RD32 TDH (R150). -/
def execRd32Tdh (s : State) : Result := readReg (indexRead s.regs.tdh) s

/-- RD32 TDT (R142). -/
def execRd32Tdt (s : State) : Result := readReg (indexRead s.regs.tdt) s

/-- RD32 RAL (R176). -/
def execRd32Ral (s : State) : Result := readReg s.regs.ral s

/-- RD32 RAH (R176). -/
def execRd32Rah (s : State) : Result := readReg s.regs.rah s

/-- WR32 CTRL (R171). -/
def execWr32Ctrl (v : Word) (s : State) : Result := writeReg .init (wrCtrl v) s

/-- WR32 IMS (R148). -/
def execWr32Ims (v : Word) (s : State) : Result := writeReg .init (wrIms v) s

/-- WR32 RCTL (R173). -/
def execWr32Rctl (v : Word) (s : State) : Result := writeReg .init (wrRctl v) s

/-- WR32 TCTL (R175). -/
def execWr32Tctl (v : Word) (s : State) : Result := writeReg .init (wrTctl v) s

/-- WR32 RDBAL (R161). -/
def execWr32Rdbal (v : Word) (s : State) : Result := writeReg .init (wrRdbal v) s

/-- WR32 RDBAH (R163). -/
def execWr32Rdbah (v : Word) (s : State) : Result := writeReg .init (wrRdbah v) s

/-- WR32 RDLEN (R165). -/
def execWr32Rdlen (v : Word) (s : State) : Result := writeReg .init (wrRdlen v) s

/-- WR32 RDH (R153). -/
def execWr32Rdh (v : Word) (s : State) : Result := writeReg .init (wrRdh v) s

/-- WR32 RDT (R145). -/
def execWr32Rdt (v : Word) (s : State) : Result := writeReg (tailClass .rx s) (wrRdt v) s

/-- WR32 RDTR (R167). -/
def execWr32Rdtr (v : Word) (s : State) : Result := writeReg .init (wrRdtr v) s

/-- WR32 RADV (R169). -/
def execWr32Radv (v : Word) (s : State) : Result := writeReg .init (wrRadv v) s

/-- WR32 TDBAL (R155). -/
def execWr32Tdbal (v : Word) (s : State) : Result := writeReg .init (wrTdbal v) s

/-- WR32 TDBAH (R157). -/
def execWr32Tdbah (v : Word) (s : State) : Result := writeReg .init (wrTdbah v) s

/-- WR32 TDLEN (R159). -/
def execWr32Tdlen (v : Word) (s : State) : Result := writeReg .init (wrTdlen v) s

/-- WR32 TDH (R151). -/
def execWr32Tdh (v : Word) (s : State) : Result := writeReg .init (wrTdh v) s

/-- WR32 TDT (R143). -/
def execWr32Tdt (v : Word) (s : State) : Result := writeReg (tailClass .tx s) (wrTdt v) s

end Sys2Proof.Machine
end

