-- ==== Sys2Proof/Machine/Sync.lean ====
section
/-! DEFINITION. The synchronising operations FENCE, LOCK and UNLOCK (R82 to R84). Memory is sequentially
consistent, so FENCE changes nothing (R78, R82). -/

namespace Sys2Proof.Machine

open Sys2Proof

/-- FENCE (R82): no state change. -/
def fence (s : State) : State := s

/-- FENCE issued alone (R82), by a thread or the interrupt context (R315). -/
def execFence (s : State) : Result := admission .path s (done (fence s))

/-- LOCK ring (R83), by the ring's own context (R315, R348): a lock another agent holds leaves the operation waiting (log 14). -/
def execLock (r : Ring) (s : State) : Result :=
  admission (ringClass r) s (lockThen r (s.setOp (.lockWait r)) s done)

/-- UNLOCK ring (R84, R315). -/
def execUnlock (r : Ring) (s : State) : Result := admission (ringClass r) s (unlockThen r s done)

/-- A waiting LOCK tries again (R83). -/
def lockRetry (r : Ring) (s : State) : Result := lockThen r s s (fun t => done t.clearOp)

end Sys2Proof.Machine
end

