-- ==== Sys2Proof/Machine/Receive.lean ====
section
/-! DEFINITION. The phases D1 to D7 and DX of RX_DRAIN (R220 to R228). A drain is phase I3 of an IRQ_HANDLER,
its only caller (R220, R240, U21, D16), so its context is the handler's. -/

namespace Sys2Proof.Machine

open Sys2Proof

/-- A drain about to take phase D1. -/
def rxStartCtx : RxCtx := { phase := .d1, r := 0, next := 0, st := 0, nb := none, len := 0, cur := none }

/-- The drain goes on at the given context. -/
def rxGoto (c : RxCtx) (s : State) : Result := .next (s.setOp (.irqHandler (.i3 c)))

/-- D1 (R221): read the tail, compute the next slot. -/
def rxD1 (c : RxCtx) (s : State) : Result :=
  rxGoto
    { c with
      phase := .d2, r := s.regs.rdt.extractLsb' 0 16
      next := BitVec.ofNat 16 (ringNext (tailIndex .rx s) (ringSize .rx s)) } s

/-- D2 (R222): test Done. -/
def rxD2 (c : RxCtx) (s : State) : Result :=
  let st := descStatus .rx c.next.toNat s
  rxGoto { c with phase := if ddSet st then .d3 else .dx, st := st } s

/-- D3 (R223): allocate the replacement first; failure ends the drain with the slot untouched (D17). -/
def rxD3 (c : RxCtx) (s : State) : Result :=
  allocThen [] s.cfg.headroom s (fun nb => rxGoto { c with phase := if nb.isSome then .d4 else .dx, nb := nb })

/-- D4 (R224): record the reported length into the buffer in the slot. -/
def rxD4 (c : RxCtx) (s : State) : Result :=
  let len := descLength .rx c.next.toNat s
  match s.slotAt .rx c.next.toNat with
  | none => .fault .doneSlotEmpty
  | some cur =>
    andThen (appendBuf cur len.toNat s) (rxGoto { c with phase := .d5, len := len, cur := some cur })

/-- D5 (R225): deliver it. -/
def rxD5 (c : RxCtx) (s : State) : Result :=
  match c.cur with
  | none => .fault .doneSlotEmpty
  | some cur => andThen (deliverBuf cur s) (rxGoto { c with phase := .d6 })

/-- The payload address of the replacement buffer. -/
def rxReplacement (c : RxCtx) (s : State) : Addr :=
  match c.nb with
  | some h => s.payloadAddress h
  | none => 0

/-- D6 (R226): install the replacement, write its address, clear the status byte. -/
def rxD6 (c : RxCtx) (s : State) : Result :=
  andThen (installSlot .rx c.next.toNat c.nb s) (fun s =>
    rxGoto { c with phase := .d7 }
      (setDescStatus .rx c.next.toNat 0 (setDescPayload .rx c.next.toNat (rxReplacement c s) s)))

/-- D7 (R227): FENCE, then advance the tail to the slot. -/
def rxD7 (c : RxCtx) (s : State) : Result :=
  andThen (wrRdt (c.next.setWidth 32) (fence s)) (rxGoto { c with phase := .d1 })

/-- DX (R228): the drain ends and the handler goes on at I4; no value is returned, the lock stays. -/
def rxDx (s : State) : Result := .next (s.setOp (.irqHandler .i4))

/-- The next phase of a drain in progress. -/
def rxPhase (c : RxCtx) (s : State) : Result :=
  match c.phase with
  | .d1 => rxD1 c s
  | .d2 => rxD2 c s
  | .d3 => rxD3 c s
  | .d4 => rxD4 c s
  | .d5 => rxD5 c s
  | .d6 => rxD6 c s
  | .d7 => rxD7 c s
  | .dx => rxDx s

/-- Enough phases for a drain with no step of another agent between: seven per slot, three to find the
next one empty (R229). -/
def rxPhases (s : State) : Nat := 7 * ringSize .rx s + 3

/-- Up to `n` phases of the issuer's drain, one after another; it stops when the drain has ended. -/
def runDrain : Nat → State → Result
  | 0, s => .next s
  | n + 1, s =>
    match s.opOf s.issuer with
    | some (.irqHandler (.i3 c)) => andThen (rxPhase c s) (runDrain n)
    | _ => .next s

/-- The contract of RX_DRAIN (R220): the ring is constructed, the issuer holds its lock, and its IRQ_HANDLER is at
phase I3 (R240, U21, log 19). -/
def startDrain (s : State) : Result :=
  if s.failed then .refused .failedState
  else if !AgentClass.irq.allows s.issuer then .refused .wrongContext
  else if !s.rxReady then .refused .ringNotConstructed
  else match s.opOf s.issuer with
    | none => .refused .drainOutsideHandler
    | some o =>
      if o ≠ .irqHandler (.i3 rxStartCtx) then .refused .agentBusy
      else if !s.holdsLock .rx then .refused .lockNotHeld
      else .next s

end Sys2Proof.Machine
end

