-- ==== Sys2Proof/Machine/Interrupt.lean ====
section
/-! DEFINITION. IRQ_HANDLER (R240 to R244): acknowledge, then drain under the receive lock. -/

namespace Sys2Proof.Machine

open Sys2Proof

/-- The conditions of invocation (R240, R311): the receive ring is constructed and no handler runs. -/
def startHandler (s : State) : Result :=
  admission .irq s
    (if !s.rxReady then .refused .ringNotConstructed
     else if s.irqActive then .refused .handlerActive
     else .next (s.setOp (.irqHandler .i0)))

/-- The handler goes on at the given phase. -/
def irqGoto (p : IrqPhase) (s : State) : Result := .next (s.setOp (.irqHandler p))

/-- I0 (R241): entry; nothing is saved or switched but `irq_active` (R312). -/
def irqI0 (s : State) : Result := if s.irqActive then .next s else irqGoto .i1 { s with irqActive := true }

/-- I1 (R242): acknowledge every cause, under no lock. -/
def irqI1 (s : State) : Result := andThen (wrIcr 0xFFFFFFFF s) (irqGoto .i2)

/-- I2 (R243): LOCK RX, or wait. -/
def irqI2 (s : State) : Result := lockThen .rx s s (irqGoto (.i3 rxStartCtx))

/-- I4 (R244): UNLOCK RX; return. -/
def irqI4 (s : State) : Result := unlockThen .rx s (fun s => .next { s with irqActive := false }.clearOp)

/-- The next phase of an IRQ_HANDLER in progress; I3 is a whole drain. -/
def irqPhase (p : IrqPhase) (s : State) : Result :=
  match p with
  | .i0 => irqI0 s
  | .i1 => irqI1 s
  | .i2 => irqI2 s
  | .i3 c => rxPhase c s
  | .i4 => irqI4 s

/-- Enough phases for a handler with no step of another agent between. -/
def irqPhases (s : State) : Nat := rxPhases s + 4

end Sys2Proof.Machine
end

