-- ==== Sys2Proof/Machine/Slots.lean ====
section
/-! DEFINITION. The states, windows and owners of slots as functions of state (R280 to R284); no field holds them. -/

namespace Sys2Proof.Machine

open Sys2Proof

/-- The three states of a slot (R280). -/
inductive SlotState where
  | softwareFree
  | hardwareOwned
  | completed
  deriving DecidableEq, Repr

/-- The two parties of the ownership protocol (R284). -/
inductive Owner where
  | software
  | hardware
  deriving DecidableEq, Repr

/-- `HWSET_TX`: the transmit slots committed and not yet completed (R284). -/
def inHwset (i : Nat) (s : State) : Bool :=
  (List.range s.txPending).any fun k => (headIndex .tx s + k) % ringSize .tx s == i

/-- `WIN_RX`: the receive slots from RDH forward to the one before RDT (R284). -/
def inWindow (i : Nat) (s : State) : Bool :=
  (List.range (ringDist (headIndex .rx s) (tailIndex .rx s) (ringSize .rx s))).any fun k =>
    (headIndex .rx s + k) % ringSize .rx s == i

/-- The phase is one in which a TRANSMIT has its slot (R283). -/
def txOwns : TxPhase → Bool
  | .t4 => true
  | .t5 => true
  | .t6 => true
  | .t7 => true
  | _ => false

/-- The phase is one in which a drain has its slot (R283). -/
def rxOwns : RxPhase → Bool
  | .d3 => true
  | .d4 => true
  | .d5 => true
  | .d6 => true
  | _ => false

/-- The operation is a TRANSMIT that has transmit slot `i` (R283). -/
def opHasTx (i : Nat) : Op → Bool
  | .transmit c => c.t.toNat == i && txOwns c.phase
  | _ => false

/-- The operation is a handler in a drain that has receive slot `i` (R283). -/
def opHasRx (i : Nat) : Op → Bool
  | .irqHandler (.i3 c) => c.next.toNat == i && rxOwns c.phase
  | _ => false

/-- The state of a slot (R283). -/
def slotState (r : Ring) (i : Nat) (s : State) : SlotState :=
  match r with
  | .tx =>
    if inHwset i s then .hardwareOwned
    else if s.ops.any (fun e => opHasTx i e.2) then .softwareFree
    else .completed
  | .rx =>
    if s.ops.any (fun e => opHasRx i e.2) then .softwareFree
    else if ddSet (descStatus .rx i s) then .completed
    else .hardwareOwned

/-- The owner of a slot: software iff it is `SoftwareFree` (R284). -/
def slotOwner (r : Ring) (i : Nat) (s : State) : Owner :=
  match slotState r i s with
  | .softwareFree => .software
  | _ => .hardware

/-- Slot `i` is given to the hardware: from the tail write that makes it available until software observes its
Done (R87). A transmit slot that is `Completed` but empty has never been given. -/
def exposed (r : Ring) (i : Nat) (s : State) : Bool :=
  ringReady r s && decide (i < ringSize r s) &&
    match r with
    | .tx => inHwset i s || (slotState .tx i s == .completed && (s.slotAt .tx i).isSome)
    | .rx => inWindow i s || slotState .rx i s == .completed

end Sys2Proof.Machine
end

