-- ==== Sys2Proof/Machine/Transmit.lean ====
section
/-! DEFINITION. TRANSMIT (R200 to R209): its contract and its phases T1 to T9, one atomic step each. -/

namespace Sys2Proof.Machine

open Sys2Proof

/-- A TRANSMIT about to take phase T1. -/
def txStartCtx (b : Handle) : TxCtx := { phase := .t1, b := b, t := 0, st := 0, old := none }

/-- The contract of TRANSMIT about its buffer (R200): it is the calling thread's and has a length of 1 to 0xFFFF. -/
def whenSendable (b : Handle) (s : State) (r : Result) : Result :=
  if s.holderOf b ≠ .caller s.issuer then .refused .notCallers
  else if s.payloadLength b = 0 ∨ 0xFFFF < s.payloadLength b then .refused .payloadLength
  else r

/-- TRANSMIT begins: the ring is constructed and the buffer meets the contract (R200). -/
def startTransmit (b : Handle) (s : State) : Result :=
  admission .thread s
    (if !s.txReady then .refused .ringNotConstructed
     else if b = 0 then .refused .noneHandle
     else whenSendable b s (.next (s.setOp (.transmit (txStartCtx b)))))

/-- The TRANSMIT goes on at the given context. -/
def txGoto (c : TxCtx) (s : State) : Result := .next (s.setOp (.transmit c))

/-- T1 (R201): LOCK TX, or wait. -/
def txT1 (c : TxCtx) (s : State) : Result := lockThen .tx s s (txGoto { c with phase := .t2 })

/-- T2 (R202): read the tail. -/
def txT2 (c : TxCtx) (s : State) : Result := txGoto { c with phase := .t3, t := s.regs.tdt.extractLsb' 0 16 } s

/-- T3 (R203): test Done of the slot at the tail. -/
def txT3 (c : TxCtx) (s : State) : Result :=
  let st := descStatus .tx c.t.toNat s
  txGoto { c with phase := if ddSet st then .t4 else .t9, st := st } s

/-- T4 (R204): take the old buffer out of the slot and free it. -/
def txT4 (c : TxCtx) (s : State) : Result :=
  let old := s.slotAt .tx c.t.toNat
  andThen (freeSlotBuf old (s.setSlot .tx c.t.toNat none)) (txGoto { c with phase := .t5, old := old })

/-- T5 (R205): command bits set, Done cleared. -/
def txT5 (c : TxCtx) (s : State) : Result :=
  andThen (markOwned .tx c.t.toNat cmdRsEop s) (txGoto { c with phase := .t6 })

/-- T6 (R206): install the buffer, write address and length. The contract is tested again, so that what the
descriptor says is the buffer's length whatever other agents did to it since T1 (R181, R287 b, log 22). -/
def txT6 (c : TxCtx) (s : State) : Result :=
  whenSendable c.b s
    (andThen (installSlot .tx c.t.toNat (some c.b) s) (fun s =>
      txGoto { c with phase := .t7 }
        (setDescLength .tx c.t.toNat (s.payloadLength c.b)
          (setDescPayload .tx c.t.toNat (s.payloadAddress c.b) s))))

/-- T7 (R207): FENCE, then the commit. -/
def txT7 (c : TxCtx) (s : State) : Result :=
  andThen (wrTdt (indexWord (ringNext c.t.toNat (ringSize .tx s))) (fence s)) (txGoto { c with phase := .t8 })

/-- T8 (R208): UNLOCK TX, return OK. -/
def txT8 (s : State) : Result := unlockThen .tx s (fun s => .next (s.clearOp.respond codeOk 0))

/-- T9 (R209): UNLOCK TX, return RingBusy. -/
def txT9 (s : State) : Result := unlockThen .tx s (fun s => .next (s.clearOp.respond codeRingBusy 0))

/-- The next phase of a TRANSMIT in progress. -/
def txPhase (c : TxCtx) (s : State) : Result :=
  match c.phase with
  | .t1 => txT1 c s
  | .t2 => txT2 c s
  | .t3 => txT3 c s
  | .t4 => txT4 c s
  | .t5 => txT5 c s
  | .t6 => txT6 c s
  | .t7 => txT7 c s
  | .t8 => txT8 s
  | .t9 => txT9 s

/-- The most phases a TRANSMIT takes (R214). -/
def txPhases : Nat := 8

end Sys2Proof.Machine
end

