-- ==== Sys2Proof/Machine/Sequencer.lean ====
section
/-! DEFINITION. Operations of several phases as steps (R7, R48): one phase of the issuer's operation in
progress, and an operation run with no step of another agent between its phases (log 1). -/

namespace Sys2Proof.Machine

open Sys2Proof

/-- The next phase of the given operation of the issuer. -/
def opPhase (o : Op) (s : State) : Result :=
  match o with
  | .lockWait r => lockRetry r s
  | .transmit c => txPhase c s
  | .irqHandler p => irqPhase p s

/-- The issuer takes the next phase of its operation in progress; with none in progress nothing happens.
While the block has failed nothing has a step (R321). -/
def proceed (s : State) : Result :=
  if s.failed then .refused .failedState
  else match s.opOf s.issuer with
    | none => .next s
    | some o => opPhase o s

/-- Up to `n` phases of the issuer's operation, one after another; an ended or waiting operation stays so. -/
def runPhases : Nat → State → Result
  | 0, s => .next s
  | n + 1, s => andThen (proceed s) (runPhases n)

/-- TRANSMIT b (R200), its phases run back to back; a caller that finds the lock held is left waiting at T1. -/
def execTransmit (b : Handle) (s : State) : Result := andThen (startTransmit b s) (runPhases txPhases)

/-- RX_DRAIN (R220), its phases run back to back: phase I3 of the issuer's IRQ_HANDLER as a whole (R240). -/
def execRxDrain (s : State) : Result := andThen (startDrain s) (runDrain (rxPhases s))

/-- IRQ_HANDLER (R240), its phases run back to back. -/
def execIrqHandler (s : State) : Result := andThen (startHandler s) (runPhases (irqPhases s))

/-- An operation of several phases started and left before its first phase; `none` for the others, which
have one step. -/
def startOnly (i : Instr) (s : State) : Option Result :=
  match i with
  | .transmit b => some (startTransmit b s)
  | .rxDrain => some (startDrain s)
  | .irqHandler => some (startHandler s)
  | _ => none

/-- A caller fills a buffer it holds: the bytes go to its payload area and their number becomes its
length (R43, R190: "whatever the caller did before TRANSMIT"). While an operation of its own is in progress it
does no such thing: the spec leaves that open and the model refuses it (DESIGN CHOICE, log 22). -/
def prepare (h : Handle) (bytes : List Byte) (s : State) : Result :=
  if (s.opOf s.issuer).isSome then .refused .agentBusy
  else match s.bufOf h with
    | none => .refused .notCallers
    | some b =>
      if b.holder ≠ .caller s.issuer then .refused .notCallers
      else if b.area < bytes.length then .refused .areaExceeded
      else .next ((s.storeBytes b.addr bytes).setBuf h { b with len := bytes.length })

/-- Where the descriptor of an exposed slot, or the payload area of its buffer, starts, and how many bytes it has. -/
def mutableArea (r : Ring) (p : Part) (i : Nat) (s : State) : Option (Addr × Nat) :=
  if !exposed r i s then none
  else match p with
    | .descriptor => some (descAddr r i 0 s, Config.descBytes)
    | .payload => ((s.slotAt r i).bind fun h => s.bufOf h).map fun b => (b.addr, b.area)

/-- Software that does not keep R87 overwrites what it gave to the hardware (U7, log 22). A byte it writes before
the device's access is read new, one it writes after is read old. -/
def mutate (r : Ring) (p : Part) (i off : Nat) (bytes : List Byte) (s : State) : Result :=
  match mutableArea r p i s with
  | none => .refused .notCommitted
  | some (a, n) =>
    if n < off + bytes.length then .refused .areaExceeded
    else .next (s.storeBytes (a + BitVec.ofNat 64 off) bytes)

end Sys2Proof.Machine
end

