-- ==== Sys2Proof/Machine/Dispatch.lean ====
section
/-! DEFINITION. The meaning of every instruction, one arm each. -/

namespace Sys2Proof.Machine

open Sys2Proof

def exec (i : Instr) (s : State) : Host.Outcome State Fault Refusal :=
  match i with
  | .lock r => Sys2Proof.Machine.execLock r s
  | .unlock r => Sys2Proof.Machine.execUnlock r s
  | .fence => Sys2Proof.Machine.execFence s
  | .slotStatus r k => Sys2Proof.Machine.execSlotStatus r k s
  | .markHwOwned r k c => Sys2Proof.Machine.execMarkHwOwned r k c s
  | .installBuf r k h => Sys2Proof.Machine.execInstallBuf r k h s
  | .transmit b => Sys2Proof.Machine.execTransmit b s
  | .rxDrain => Sys2Proof.Machine.execRxDrain s
  | .irqHandler => Sys2Proof.Machine.execIrqHandler s
  | .ringInitTx n => Sys2Proof.Machine.execRingInitTx n s
  | .ringInitRx n => Sys2Proof.Machine.execRingInitRx n s
  | .rd32Ctrl => Sys2Proof.Machine.execRd32Ctrl s
  | .wr32Ctrl v => Sys2Proof.Machine.execWr32Ctrl v s
  | .rd32Icr => Sys2Proof.Machine.execRd32Icr s
  | .wr32Icr v => Sys2Proof.Machine.execWr32Icr v s
  | .rd32Ims => Sys2Proof.Machine.execRd32Ims s
  | .wr32Ims v => Sys2Proof.Machine.execWr32Ims v s
  | .rd32Rctl => Sys2Proof.Machine.execRd32Rctl s
  | .wr32Rctl v => Sys2Proof.Machine.execWr32Rctl v s
  | .rd32Tctl => Sys2Proof.Machine.execRd32Tctl s
  | .wr32Tctl v => Sys2Proof.Machine.execWr32Tctl v s
  | .rd32Rdbal => Sys2Proof.Machine.execRd32Rdbal s
  | .wr32Rdbal v => Sys2Proof.Machine.execWr32Rdbal v s
  | .rd32Rdbah => Sys2Proof.Machine.execRd32Rdbah s
  | .wr32Rdbah v => Sys2Proof.Machine.execWr32Rdbah v s
  | .rd32Rdlen => Sys2Proof.Machine.execRd32Rdlen s
  | .wr32Rdlen v => Sys2Proof.Machine.execWr32Rdlen v s
  | .rd32Rdh => Sys2Proof.Machine.execRd32Rdh s
  | .wr32Rdh v => Sys2Proof.Machine.execWr32Rdh v s
  | .rd32Rdt => Sys2Proof.Machine.execRd32Rdt s
  | .wr32Rdt v => Sys2Proof.Machine.execWr32Rdt v s
  | .rd32Rdtr => Sys2Proof.Machine.execRd32Rdtr s
  | .wr32Rdtr v => Sys2Proof.Machine.execWr32Rdtr v s
  | .rd32Radv => Sys2Proof.Machine.execRd32Radv s
  | .wr32Radv v => Sys2Proof.Machine.execWr32Radv v s
  | .rd32Tdbal => Sys2Proof.Machine.execRd32Tdbal s
  | .wr32Tdbal v => Sys2Proof.Machine.execWr32Tdbal v s
  | .rd32Tdbah => Sys2Proof.Machine.execRd32Tdbah s
  | .wr32Tdbah v => Sys2Proof.Machine.execWr32Tdbah v s
  | .rd32Tdlen => Sys2Proof.Machine.execRd32Tdlen s
  | .wr32Tdlen v => Sys2Proof.Machine.execWr32Tdlen v s
  | .rd32Tdh => Sys2Proof.Machine.execRd32Tdh s
  | .wr32Tdh v => Sys2Proof.Machine.execWr32Tdh v s
  | .rd32Tdt => Sys2Proof.Machine.execRd32Tdt s
  | .wr32Tdt v => Sys2Proof.Machine.execWr32Tdt v s
  | .rd32Ral => Sys2Proof.Machine.execRd32Ral s
  | .wr32Ral v => Sys2Proof.Machine.execWr32Ral v s
  | .rd32Rah => Sys2Proof.Machine.execRd32Rah s
  | .wr32Rah v => Sys2Proof.Machine.execWr32Rah v s
  | .rd32Mta k => Sys2Proof.Machine.execRd32Mta k s
  | .wr32Mta k v => Sys2Proof.Machine.execWr32Mta k v s
  | .devTxFetch => Sys2Proof.Machine.execDevTxFetch s
  | .devTxDone => Sys2Proof.Machine.execDevTxDone s
  | .devRxFrame len => Sys2Proof.Machine.execDevRxFrame len s
  | .hwReset => Sys2Proof.Machine.execHwReset s
  | .alloc headroom => Sys2Proof.Machine.execAlloc headroom s
  | .free h => Sys2Proof.Machine.execFree h s
  | .append h len => Sys2Proof.Machine.execAppend h len s
  | .deliver h => Sys2Proof.Machine.execDeliver h s

end Sys2Proof.Machine
end

