-- ==== Sys2Proof/Machine/Step.lean ====
section
/-! DEFINITION. One step of the machine: the next event of the schedule is taken (R7, log 1, log 2). The
block has no program counter and fetches nothing (R38); operation words come from the agents that issue
them, which the schedule holds. -/

namespace Sys2Proof.Machine

open Sys2Proof

/-- The state in which agent `a` takes its step, the rest of the schedule still to come. -/
def State.taking (a : Agent) (rest : List Event) (s : State) : State := { s with inputs := rest, issuer := a }

/-- One event. -/
def stepEvent (e : Event) (rest : List Event) (s : State) : Host.Outcome State Fault Refusal :=
  match e with
  | .issue a w =>
    match decode w with
    | .error x => .refused (.undecodable x)
    | .ok i => exec i (s.taking a rest)
  | .start a w =>
    match decode w with
    | .error x => .refused (.undecodable x)
    | .ok i => (startOnly i (s.taking a rest)).getD (exec i (s.taking a rest))
  | .proceed a => proceed (s.taking a rest)
  | .prepare a h bytes => prepare h bytes (s.taking a rest)
  | .mutate a r p i off bytes => mutate r p i off bytes (s.taking a rest)

/-- One step: the next event of the schedule; with none to come nothing happens (R330: "the block does
nothing until the initialisation collaborator acts"). -/
def step (s : State) : Host.Outcome State Fault Refusal :=
  match s.inputs with
  | [] => .next s
  | e :: rest => stepEvent e rest s

/-- The agent that issues a word when none is named (R115, R315); a word that spells no operation is `T1`'s. -/
def wordAgent (w : OpWord) (s : State) : Agent :=
  match decode w with
  | .ok i => defaultAgent i s
  | .error _ => .thread 1

/-- The word placed where the next step takes its operation from: at the head of the schedule, issued from the
context that R315 gives it. -/
def State.withFetchWord (s : State) (_nbits w : Nat) : State :=
  { s with inputs := .issue (wordAgent (BitVec.ofNat 64 w) s) (BitVec.ofNat 64 w) :: s.inputs }

end Sys2Proof.Machine
end

