-- ==== Sys2Proof/Safety.lean ====
section
/-! DEFINITION. The terms claims are stated in: the legal states of the machine (R21 to R35, R43, R45, R287,
R288), who may issue an operation, the exact rings, and the states a drain starts from. -/

namespace Sys2Proof.Machine

open Sys2Proof

/-! Legal states. -/

/-- The reserved bits of the registers are 0, and the delays are 0 (R21 to R35). -/
def RegsLegal (g : Regs) : Bool :=
  g.ctrl == 0 && g.icr &&& ~~~rxt0 == 0 && g.ims &&& ~~~rxt0 == 0
    && g.rctl &&& ~~~ctlEn == 0 && g.tctl &&& ~~~ctlEn == 0
    && lengthOk g.tdlen && lengthOk g.rdlen
    && indexOk g.tdh && indexOk g.tdt && indexOk g.rdh && indexOk g.rdt
    && g.rdtr == 0 && g.radv == 0

/-- The transmit ring's indices and hidden state agree (R45, R46, R287 a and d). -/
structure TxLegal (s : State) : Prop where
  /-- A constructed ring has at least 8 slots, its head and tail name slots, and `TDT = (TDH + tx_pending) mod N`. -/
  ring : s.txReady = true → 8 ≤ ringSize .tx s ∧ headIndex .tx s < ringSize .tx s
    ∧ s.txPending ≤ ringSize .tx s
    ∧ tailIndex .tx s = (headIndex .tx s + s.txPending) % ringSize .tx s
  /-- Before construction nothing is pending or in flight. -/
  idle : s.txReady = false → s.txPending = 0 ∧ s.txInflight = none
  /-- What is in flight is the oldest pending slot. -/
  flight : ∀ f, s.txInflight = some f → 0 < s.txPending ∧ f.slot.toNat = headIndex .tx s

/-- A constructed receive ring has at least 8 slots, and its head and tail name slots (R5, R33, R34). -/
structure RxLegal (s : State) : Prop where
  ring : s.rxReady = true → 8 ≤ ringSize .rx s ∧ headIndex .rx s < ringSize .rx s ∧ tailIndex .rx s < ringSize .rx s

/-- Live buffers are listed once, none of them is in the pool, no length exceeds its area, and every area has at least
RX_BUF_BYTES (R43, R186, R290). -/
def bufsLegal (p : Config.Params) (l : List (Nat × Buffer)) : Bool :=
  Assoc.rising l
    && l.all (fun e => e.2.holder != .pool && decide (e.2.len ≤ e.2.area) && decide (p.rxBufBytes ≤ e.2.area))

/-- An agent has at most one operation in progress (R48). -/
def opsLegal (l : List (Nat × Op)) : Bool := Assoc.rising l

/-- The receive half is enabled only on a constructed ring with no delay, the transmit half only on a
constructed ring (R35, R173, R175). -/
def enablesLegal (s : State) : Bool :=
  (!enSet s.regs.rctl || (s.rxReady && s.regs.rdtr == 0 && s.regs.radv == 0)) && (!enSet s.regs.tctl || s.txReady)

/-- The states the rules keep: every reachable state is one. -/
structure Legal (s : State) : Prop where
  mem : Memory.wf s.mem = true
  bufs : bufsLegal s.cfg s.bufs = true
  ops : opsLegal s.ops = true
  regs : RegsLegal s.regs = true
  enables : enablesLegal s = true
  tx : TxLegal s
  rx : RxLegal s

/-- The issuer may issue an operation of class `c` now: the block has not failed, the context is right and
the issuer has nothing in progress (R48, R315, R321). -/
abbrev CanIssue (c : AgentClass) (s : State) : Prop :=
  s.failed = false ∧ c.allows s.issuer = true ∧ s.opOf s.issuer = none

/-! Vocabulary of the claims. -/

/-- The address is none of the `n` bytes that start at `base`. -/
def outside (base : Addr) (n : Nat) (a : Addr) : Prop := ∀ k < n, a ≠ base + BitVec.ofNat 64 k

/-- From `s` to `t` the issuer's operation in progress becomes `o`, and no other agent's changes (R48). -/
def OpBecomes (o : Option Op) (s t : State) : Prop :=
  t.opOf s.issuer = o ∧ ∀ a, a ≠ s.issuer → t.opOf a = s.opOf a

/-- From `s` to `t` no buffer but `h` changes (R290). -/
def OtherBuffersSame (h : Handle) (s t : State) : Prop := ∀ g, g ≠ h → t.bufOf g = s.bufOf g

/-- Done is set in exactly the transmit slots that are not hardware-owned, every hardware-owned slot has the
command `RS | EOP` and a length of at least 1, and what is in flight has that command (R287 b and c, outside the
one critical section). -/
structure TxExact (s : State) : Prop where
  done : ∀ i, i < ringSize .tx s → ddSet (descStatus .tx i s) = !inHwset i s
  command : ∀ i, i < ringSize .tx s → inHwset i s = true → txdCmd i s = cmdRsEop
  length : ∀ i, i < ringSize .tx s → inHwset i s = true → descLength .tx i s ≠ 0
  flight : ∀ f, s.txInflight = some f → f.cmd = cmdRsEop

/-- Done is set in exactly the receive slots that are neither in the window nor the reserved slot (R288 b
and c, outside a drain's phases D3 to D7). -/
def RxExact (s : State) : Prop :=
  ∀ i, i < ringSize .rx s → ddSet (descStatus .rx i s) = !(inWindow i s || i == tailIndex .rx s)

/-- The operation is a TRANSMIT past T1: it is inside its critical section (R201 to R209). -/
def Op.holdsTx : Op → Bool
  | .transmit c => c.phase != .t1
  | _ => false

/-- The operation is a handler past I2: it is inside the receive critical section (R220, R243). -/
def Op.holdsRx : Op → Bool
  | .irqHandler (.i3 _) => true
  | .irqHandler .i4 => true
  | _ => false

/-- Who is inside a ring's critical section holds the ring's lock (R88, R343). -/
def CriticalSections (s : State) : Prop :=
  ∀ a o, s.opOf a = some o →
    (o.holdsTx = true → s.txLock = .held a) ∧ (o.holdsRx = true → s.rxLock = .held a)

/-- The handles delivered by a run of outputs, in order (R231). -/
def deliveries : List Output → List Handle
  | [] => []
  | .deliver h :: l => h :: deliveries l
  | _ :: l => deliveries l

/-- An ALLOC answered failure among the outputs (R186). -/
def allocFailed (l : List Output) : Bool :=
  l.any fun o => match o with
    | .alloc _ none => true
    | _ => false

/-- The outputs added from `s` to `t`. -/
def newOutputs (s t : State) : List Output := t.out.drop s.out.length

/-- Grants the allocator may give one after another: handles not `none`, not live and distinct, payload areas
that are memory and apart from `taken` and from one another (R186). -/
def grantsOk (p : Config.Params) (live : List (Nat × Buffer)) : List Region → List Grant → Bool
  | _, [] => true
  | taken, g :: gs =>
    g.handle != 0 && (Assoc.lookup g.handle.toNat live).isNone && gs.all (fun f => f.handle != g.handle)
      && placeable p (runAt g.addr p.rxBufBytes) taken
      && grantsOk p live (runAt g.addr p.rxBufBytes :: taken) gs

/-- The `j`-th receive slot after the tail, counted from 0, across the wrap (R221, R230). -/
def drainSlot (s : State) (j : Nat) : Nat := (tailIndex .rx s + 1 + j) % ringSize .rx s

/-- The interrupt context's handler is at the head of its drain (phase I3) under the receive lock: the states in
which RX_DRAIN is issued (R220, R240, log 19). -/
structure AtDrain (s : State) : Prop where
  running : s.failed = false
  context : s.issuer = .irq
  phase : s.opOf s.issuer = some (.irqHandler (.i3 rxStartCtx))
  lock : s.rxLock = .held s.issuer

/-- A drain has as many slots to consume as there are grants: each is completed, with a length that fits and a
live buffer, the slot after them is not completed, and the allocator will give the grants (R220 to R226, R186). -/
structure DrainReady (gs : List Grant) (rest : List (Option Grant)) (s : State) : Prop where
  ready : s.rxReady = true
  ring : RxLegal s
  /-- One slot stays in reserve (R288). -/
  count : 0 < gs.length ∧ gs.length < ringSize .rx s
  allocs : s.allocs = gs.map some ++ rest
  grants : grantsOk s.cfg s.bufs (liveRegions s) gs = true
  fresh : ∀ g ∈ gs, namedBy g.handle none 0 s.txBuf = false ∧ namedBy g.handle none 0 s.rxBuf = false
  completed : ∀ j, j < gs.length →
    ddSet (descStatus .rx (drainSlot s j) s) = true ∧ (descLength .rx (drainSlot s j) s).toNat ≤ s.cfg.rxBufBytes
      ∧ ∃ cur b, s.slotAt .rx (drainSlot s j) = some cur ∧ s.bufOf cur = some b
  stops : ddSet (descStatus .rx (drainSlot s gs.length) s) = false

/-- The port events of a drain of the slots from the `j`-th after the tail on, one slot per grant, in the order of
its phases: ALLOC, APPEND, DELIVER (R223 to R225). -/
def drainOutputs (s : State) : Nat → List Grant → List Output
  | _, [] => []
  | j, g :: gs =>
    .alloc s.cfg.headroom (some g.handle)
      :: .append ((s.slotAt .rx (drainSlot s j)).getD 0) (descLength .rx (drainSlot s j) s).toNat
      :: .deliver ((s.slotAt .rx (drainSlot s j)).getD 0) :: drainOutputs s (j + 1) gs

/-- Slot `i` is the hardware's: available, or completed (a transmit slot with a buffer that was sent) and its Done not
yet observed (R87). -/
def GivenToHardware (r : Ring) (i : Nat) (s : State) : Prop :=
  match r with
  | .tx => inHwset i s = true ∨ (slotState .tx i s = .completed ∧ s.slotAt .tx i ≠ none)
  | .rx => inWindow i s = true ∨ slotState .rx i s = .completed

/-- The outcome is a fault. -/
def Faults (r : Result) : Prop := ∃ f, r = .fault f

/-- The outcome is a refusal. -/
def Refuses (r : Result) : Prop := ∃ x, r = .refused x

end Sys2Proof.Machine
end

