-- ==== Sys2Proof/Certificates/Slice0/Obligations.lean ====
section
/-! DEFINITION. What is claimed of the model: one `Obligations.<Name>` per claim, with the rules of spec/ it
formalises in its docstring. `CanIssue c s` says the issuer may issue an operation of class `c` now. -/

open Sys2Proof Sys2Proof.Machine

/-! Encodings (R101 to R104, R113). -/

/-- The word of an instruction decodes to that instruction, whatever its operands (R102 to R104). -/
def Obligations.DecodeUndoesEncode : Prop := ∀ i : Instr, decode (encode i) = .ok i

/-- A word that decodes is the one word of its instruction: no two words spell the same operation, and a
word with a non-zero reserved or unused field spells none (R102, R113 b). -/
def Obligations.EncodeUndoesDecode : Prop := ∀ (w : OpWord) (i : Instr), decode w = .ok i → encode i = w

/-- Words written out from R102 to R104 decode to the operations they stand for. -/
def Obligations.SpecWordsDecode : Prop :=
  decode 0x0000000000000101 = .ok (.lock .rx) ∧
  decode 0x0000000900030011 = .ok (.markHwOwned .tx 3 0x09) ∧
  decode 0x0000002A00000020 = .ok (.transmit 42) ∧
  decode 0x0000000000080150 = .ok (.ringInitRx 8) ∧
  decode 0x0000000038180060 = .ok .rd32Tdt ∧
  decode 0x0000000338180061 = .ok (.wr32Tdt 3) ∧
  decode 0x0000000052140060 = .ok (.rd32Mta 5) ∧
  decode 0x00000000003C0182 = .ok (.devRxFrame 60) ∧
  decode 0x0000000205DC0092 = .ok (.append 2 1500)

/-- R101: the register is selected by the offset alone, by exact match against R21's offsets (MTA matches
`off[15:9] = 0b0101001`); a read or a write at an offset that matches none is refused. -/
def Obligations.RegistersSelectedByOffset : Prop :=
  (∀ (off : Idx) (v : Word) (r : Reg), off = r.offset →
    decodePort false off v = .ok r.read ∧ decodePort true off v = .ok (r.write v)) ∧
  (∀ (off : Idx) (v : Word), (∀ r : Reg, off ≠ r.offset) →
    (∃ e, decodePort false off v = .error e) ∧ ∃ e, decodePort true off v = .error e) ∧
  (∀ (off : Idx) (v : Word), decode (mkWord 0x60 .tx off 0) = decodePort false off v ∧
    decode (mkWord 0x61 .tx off v) = decodePort true off v) ∧
  Reg.offset .ctrl = 0x0000 ∧ Reg.offset .icr = 0x00C0 ∧ Reg.offset .ims = 0x00D0 ∧ Reg.offset .rctl = 0x0100 ∧
  Reg.offset .tctl = 0x0400 ∧ Reg.offset .rdbal = 0x2800 ∧ Reg.offset .rdbah = 0x2804 ∧ Reg.offset .rdlen = 0x2808 ∧
  Reg.offset .rdh = 0x2810 ∧ Reg.offset .rdt = 0x2818 ∧ Reg.offset .rdtr = 0x2820 ∧ Reg.offset .radv = 0x282C ∧
  Reg.offset .tdbal = 0x3800 ∧ Reg.offset .tdbah = 0x3804 ∧ Reg.offset .tdlen = 0x3808 ∧ Reg.offset .tdh = 0x3810 ∧
  Reg.offset .tdt = 0x3818 ∧ Reg.offset .ral = 0x5400 ∧ Reg.offset .rah = 0x5404 ∧
  ∀ k : BitVec 7, (Reg.offset (.mta k)).toNat = 0x5200 + 4 * k.toNat

/-- R113 a to c: a word whose reserved field is not zero, whose operation code is not in R103, or that
accesses an offset no register has, spells no operation. -/
def Obligations.WordsThatSpellNoOperation : Prop :=
  ∀ w : OpWord,
    (w.extractLsb' 9 7 ≠ 0 → ∃ e, decode w = .error e) ∧
    ((w.extractLsb' 0 8).toNat ∉
        [0x01, 0x02, 0x03, 0x10, 0x11, 0x12, 0x20, 0x30, 0x40, 0x50, 0x60, 0x61, 0x80, 0x81, 0x82, 0x8F, 0x90, 0x91,
          0x92, 0x93] →
      ∃ e, decode w = .error e) ∧
    ((w.extractLsb' 0 8 = 0x60 ∨ w.extractLsb' 0 8 = 0x61) → (∀ r : Reg, w.extractLsb' 16 16 ≠ r.offset) →
      ∃ e, decode w = .error e)

/-- A step takes the event at the head of the schedule: an operation word that an agent issues is decoded and run as
that agent's (log 2); a word that spells no operation is refused; the other events are a start, a phase and software's
writing of a buffer or descriptor (log 1, log 22); with no event to come the state does not change. The word placed by
`withFetchWord` is the one the next step runs, issued from the context R315 gives it (log 9). -/
def Obligations.StepRunsTheDecodedOperation : Prop :=
  (∀ (s : State) (a : Agent) (w : OpWord) (i : Instr) (rest : List Event),
    s.inputs = .issue a w :: rest → decode w = .ok i → step s = exec i { s with inputs := rest, issuer := a }) ∧
  (∀ (s : State) (a : Agent) (w : OpWord) (e : DecodeError) (rest : List Event),
    s.inputs = .issue a w :: rest → decode w = .error e → step s = .refused (.undecodable e)) ∧
  (∀ (s : State) (a : Agent) (w : OpWord) (i : Instr) (rest : List Event),
    s.inputs = .start a w :: rest → decode w = .ok i →
      step s = (startOnly i { s with inputs := rest, issuer := a }).getD
        (exec i { s with inputs := rest, issuer := a })) ∧
  (∀ (s : State) (a : Agent) (h : Handle) (bytes : List Byte) (rest : List Event),
    s.inputs = .prepare a h bytes :: rest → step s = prepare h bytes { s with inputs := rest, issuer := a }) ∧
  (∀ (s : State) (a : Agent) (r : Ring) (p : Part) (i off : Nat) (bytes : List Byte) (rest : List Event),
    s.inputs = .mutate a r p i off bytes :: rest →
      step s = mutate r p i off bytes { s with inputs := rest, issuer := a }) ∧
  (∀ (s : State) (a : Agent) (rest : List Event),
    s.inputs = .proceed a :: rest → step s = proceed { s with inputs := rest, issuer := a }) ∧
  (∀ s : State, s.inputs = [] → step s = .next s) ∧
  (∀ (s : State) (w : OpWord) (i : Instr) (n : Nat), decode w = .ok i →
    step (s.withFetchWord n w.toNat) = exec i { s with issuer := defaultAgent i s })

/-! Who may issue what (R48, R103, R113, R315, R321, R322). -/

/-- An instruction whose operands the spec gives no meaning in any state is refused in every state (R113 d,
f, g; R322). The model's own readings in it: FREE, APPEND and DELIVER of handle 0 are refused (log 17), a frame of 0
bytes is refused even while the half is disabled (log 23), and U14 decides which values ICR takes (log 11). -/
def Obligations.IllFormedOperationsAreRefused : Prop :=
  ∀ (i : Instr) (s : State), WellFormed i = false → Refuses (exec i s)

/-- R321: while `failed` = 1 no operation and no phase of one has a step; only HW_RESET runs (log 12). -/
def Obligations.FailedBlockRefusesEverything : Prop :=
  ∀ s : State, s.failed = true → (∀ i : Instr, i ≠ .hwReset → exec i s = .refused .failedState) ∧
    proceed s = .refused .failedState

/-- An operation issued from another context than R315's table gives it (log 9), or by an agent that has an
operation in progress (R48, log 21), is refused; RX_DRAIN is refused wherever the issuer's handler is not at the
head of its drain (R220, R240, U21, log 19). -/
def Obligations.OnlyTheRightAgentMayIssue : Prop :=
  ∀ (i : Instr) (s : State),
    ((classOf i s).allows s.issuer = false → Refuses (exec i s)) ∧
    (i ≠ .hwReset → i ≠ .rxDrain → (s.opOf s.issuer).isSome = true → Refuses (exec i s)) ∧
    (s.opOf s.issuer ≠ some (.irqHandler (.i3 rxStartCtx)) → Refuses (exec .rxDrain s))

/-! Register accesses (R140 to R177). -/

/-- A register read returns the value of the register's own rule with code 0 and changes nothing: the index
field for a head or tail register, 0 for CTRL, the register as it is otherwise (R140, R142 to R176 but R147). -/
def Obligations.RegisterReads : Prop :=
  ∀ s : State, CanIssue .host s →
    exec .rd32Tdt s = .next (s.respond codeOk ((s.regs.tdt.extractLsb' 0 16).setWidth 32)) ∧
    exec .rd32Rdt s = .next (s.respond codeOk ((s.regs.rdt.extractLsb' 0 16).setWidth 32)) ∧
    exec .rd32Tdh s = .next (s.respond codeOk ((s.regs.tdh.extractLsb' 0 16).setWidth 32)) ∧
    exec .rd32Rdh s = .next (s.respond codeOk ((s.regs.rdh.extractLsb' 0 16).setWidth 32)) ∧
    exec .rd32Ctrl s = .next (s.respond codeOk 0) ∧
    exec .rd32Ims s = .next (s.respond codeOk s.regs.ims) ∧
    exec .rd32Rctl s = .next (s.respond codeOk s.regs.rctl) ∧
    exec .rd32Tctl s = .next (s.respond codeOk s.regs.tctl) ∧
    exec .rd32Tdbal s = .next (s.respond codeOk s.regs.tdbal) ∧
    exec .rd32Tdbah s = .next (s.respond codeOk s.regs.tdbah) ∧
    exec .rd32Tdlen s = .next (s.respond codeOk s.regs.tdlen) ∧
    exec .rd32Rdbal s = .next (s.respond codeOk s.regs.rdbal) ∧
    exec .rd32Rdbah s = .next (s.respond codeOk s.regs.rdbah) ∧
    exec .rd32Rdlen s = .next (s.respond codeOk s.regs.rdlen) ∧
    exec .rd32Rdtr s = .next (s.respond codeOk s.regs.rdtr) ∧
    exec .rd32Radv s = .next (s.respond codeOk s.regs.radv) ∧
    exec .rd32Ral s = .next (s.respond codeOk s.regs.ral) ∧
    exec .rd32Rah s = .next (s.respond codeOk s.regs.rah) ∧
    ∀ k : BitVec 7, exec (.rd32Mta k) s = .next (s.respond codeOk (s.regs.mta.get ⟨k.toNat, k.isLt⟩))

/-- R147: a read of the interrupt cause register is refused, whoever issues it. -/
def Obligations.CauseReadIsRefused : Prop :=
  ∀ s : State, Refuses (exec .rd32Icr s) ∧ (CanIssue .host s → exec .rd32Icr s = .refused .icrRead)

/-- R151, R153, R155, R157, R159, R161, R163, R165: head, base and length registers are written, by the initialisation
collaborator (R29, R33, R315), before construction only, a head only with 0, the low base only with bits 3:0 clear,
the length only with bits 31:20 and 6:0 clear. -/
def Obligations.HeadAndGeometryWrites : Prop :=
  ∀ (s : State) (v : Word), CanIssue .init s →
    (if s.txReady = false ∧ v = 0 then
      exec (.wr32Tdh v) s = .next ({ s with regs := { s.regs with tdh := 0 } }.respond codeOk 0)
      else Refuses (exec (.wr32Tdh v) s)) ∧
    (if s.rxReady = false ∧ v = 0 then
      exec (.wr32Rdh v) s = .next ({ s with regs := { s.regs with rdh := 0 } }.respond codeOk 0)
      else Refuses (exec (.wr32Rdh v) s)) ∧
    (if s.txReady = false ∧ v.extractLsb' 0 4 = 0 then
      exec (.wr32Tdbal v) s = .next ({ s with regs := { s.regs with tdbal := v } }.respond codeOk 0)
      else Refuses (exec (.wr32Tdbal v) s)) ∧
    (if s.txReady = false then
      exec (.wr32Tdbah v) s = .next ({ s with regs := { s.regs with tdbah := v } }.respond codeOk 0)
      else Refuses (exec (.wr32Tdbah v) s)) ∧
    (if s.txReady = false ∧ v.extractLsb' 20 12 = 0 ∧ v.extractLsb' 0 7 = 0 then
      exec (.wr32Tdlen v) s = .next ({ s with regs := { s.regs with tdlen := v } }.respond codeOk 0)
      else Refuses (exec (.wr32Tdlen v) s)) ∧
    (if s.rxReady = false ∧ v.extractLsb' 0 4 = 0 then
      exec (.wr32Rdbal v) s = .next ({ s with regs := { s.regs with rdbal := v } }.respond codeOk 0)
      else Refuses (exec (.wr32Rdbal v) s)) ∧
    (if s.rxReady = false then
      exec (.wr32Rdbah v) s = .next ({ s with regs := { s.regs with rdbah := v } }.respond codeOk 0)
      else Refuses (exec (.wr32Rdbah v) s)) ∧
    (if s.rxReady = false ∧ v.extractLsb' 20 12 = 0 ∧ v.extractLsb' 0 7 = 0 then
      exec (.wr32Rdlen v) s = .next ({ s with regs := { s.regs with rdlen := v } }.respond codeOk 0)
      else Refuses (exec (.wr32Rdlen v) s))

/-- Of the initialisation collaborator's writes (R315), R167, R169: a delay register takes 0 only. R173, R175: an
enable register takes 0 or 0x2; EN is set only with the ring constructed and, for reception, both delays 0. R177: an
address-filter register stores what is written. Nothing else changes. -/
def Obligations.DelayEnableAndFilterWrites : Prop :=
  ∀ (s : State) (v : Word), CanIssue .init s →
    (if v = 0 then exec (.wr32Rdtr v) s = .next ({ s with regs := { s.regs with rdtr := 0 } }.respond codeOk 0)
      else Refuses (exec (.wr32Rdtr v) s)) ∧
    (if v = 0 then exec (.wr32Radv v) s = .next ({ s with regs := { s.regs with radv := 0 } }.respond codeOk 0)
      else Refuses (exec (.wr32Radv v) s)) ∧
    (if v = 0 ∨ (v = 0x2 ∧ s.rxReady = true ∧ s.regs.rdtr = 0 ∧ s.regs.radv = 0) then
      exec (.wr32Rctl v) s = .next ({ s with regs := { s.regs with rctl := v } }.respond codeOk 0)
      else Refuses (exec (.wr32Rctl v) s)) ∧
    (if v = 0 ∨ (v = 0x2 ∧ s.txReady = true) then
      exec (.wr32Tctl v) s = .next ({ s with regs := { s.regs with tctl := v } }.respond codeOk 0)
      else Refuses (exec (.wr32Tctl v) s)) ∧
    exec (.wr32Ral v) s = .next ({ s with regs := { s.regs with ral := v } }.respond codeOk 0) ∧
    exec (.wr32Rah v) s = .next ({ s with regs := { s.regs with rah := v } }.respond codeOk 0) ∧
    ∀ k : BitVec 7, ∃ t, exec (.wr32Mta k v) s = .next t ∧
      t = { s with regs := { s.regs with mta := t.regs.mta } }.respond codeOk 0 ∧
      t.regs.mta.get ⟨k.toNat, k.isLt⟩ = v ∧ ∀ j : Fin 128, j.val ≠ k.toNat → t.regs.mta.get j = s.regs.mta.get j

/-- R171, R331, R315: of the initialisation collaborator's writes, writing 0 to CTRL has no effect; writing RST with
nothing in progress and both locks free resets the block's registers, `tx_pending`, `tx_inflight` and ready flags and
leaves the host's state and memory alone; any other write is refused. -/
def Obligations.ControlWrites : Prop :=
  ∀ s : State, CanIssue .init s →
    exec (.wr32Ctrl 0) s = .next (s.respond codeOk 0) ∧
    (∀ v : Word, v ≠ 0 → v ≠ 0x04000000 → Refuses (exec (.wr32Ctrl v) s)) ∧
    (s.ops ≠ [] ∨ s.txLock ≠ .free ∨ s.rxLock ≠ .free → Refuses (exec (.wr32Ctrl 0x04000000) s)) ∧
    (s.ops = [] → s.txLock = .free → s.rxLock = .free →
      ∃ t, exec (.wr32Ctrl 0x04000000) s = .next t ∧
        t.regs.ctrl = 0 ∧ t.regs.icr = 0 ∧ t.regs.ims = 0 ∧ t.regs.rctl = 0 ∧ t.regs.tctl = 0 ∧
        t.regs.tdlen = 0 ∧ t.regs.tdh = 0 ∧ t.regs.tdt = 0 ∧ t.regs.rdlen = 0 ∧ t.regs.rdh = 0 ∧ t.regs.rdt = 0 ∧
        t.regs.rdtr = 0 ∧ t.regs.radv = 0 ∧ t.txPending = 0 ∧ t.txInflight = none ∧
        t.txReady = false ∧ t.rxReady = false ∧ irqLine t = false ∧
        t.txLock = .free ∧ t.rxLock = .free ∧ t.irqActive = s.irqActive ∧ t.failed = false ∧ t.mem = s.mem ∧
        t.ops = [] ∧ t.out = (s.respond codeOk 0).out)

/-- R143: the commit. Before construction, from the initialisation collaborator, the tail takes 0 only; after it,
from a thread that holds `tx_lock` (R88, U21, log 10; R315, log 9), a value below `N_TX` that commits no more slots
than are free, and `tx_pending` grows by the forward distance; exactly the slots from the old tail to the new one
become available to the device engine. -/
def Obligations.TransmitTailWrite : Prop :=
  ∀ (s : State) (v : Word), CanIssue (tailClass .tx s) s →
    (if s.txReady = false then
      (if v = 0 then exec (.wr32Tdt v) s = .next ({ s with regs := { s.regs with tdt := 0 } }.respond codeOk 0)
        else Refuses (exec (.wr32Tdt v) s))
      else if s.txLock ≠ .held s.issuer then Refuses (exec (.wr32Tdt v) s)
      else if v.extractLsb' 16 16 ≠ 0 ∨ ringSize .tx s ≤ (v.extractLsb' 0 16).toNat then Refuses (exec (.wr32Tdt v) s)
      else if ringSize .tx s < s.txPending + ringDist (tailIndex .tx s) (v.extractLsb' 0 16).toNat (ringSize .tx s) then
        Refuses (exec (.wr32Tdt v) s)
      else exec (.wr32Tdt v) s = .next
        ({ s with
          regs := { s.regs with tdt := v }
          txPending :=
            s.txPending + ringDist (tailIndex .tx s) (v.extractLsb' 0 16).toNat (ringSize .tx s) }.respond codeOk 0)) ∧
    ∀ (t : State) (i : Nat), TxLegal s → s.txReady = true → exec (.wr32Tdt v) s = .next t → i < ringSize .tx s →
      (inHwset i t = true ↔ inHwset i s = true ∨
        ringDist (tailIndex .tx s) i (ringSize .tx s) <
          ringDist (tailIndex .tx s) (v.extractLsb' 0 16).toNat (ringSize .tx s))

/-- R145: the receive tail takes a value below `N_RX`: before construction from the initialisation collaborator,
after it from the interrupt context under `rx_lock` (R88, U21, log 10; R315, log 9). -/
def Obligations.ReceiveTailWrite : Prop :=
  ∀ (s : State) (v : Word), CanIssue (tailClass .rx s) s →
    if s.rxReady = true ∧ s.rxLock ≠ .held s.issuer then Refuses (exec (.wr32Rdt v) s)
    else if v.extractLsb' 16 16 ≠ 0 ∨ ringSize .rx s ≤ (v.extractLsb' 0 16).toNat then Refuses (exec (.wr32Rdt v) s)
    else exec (.wr32Rdt v) s = .next ({ s with regs := { s.regs with rdt := v } }.respond codeOk 0)

/-- R146, R148: ICR is write-one-to-clear, by the interrupt context (R315, log 9); it takes bit 7 or all ones and
refuses every other bit, as U14 rules (log 11); all ones clear every cause and the irq line. IMS is write-one-to-set,
bit 7 only, by the initialisation collaborator (R24, R315). -/
def Obligations.CauseAndMaskWrites : Prop :=
  ∀ (s : State) (v : Word),
    (CanIssue .irq s →
      (if v &&& 0xFFFFFF7F = 0 ∨ v = 0xFFFFFFFF then
        exec (.wr32Icr v) s = .next ({ s with regs := { s.regs with icr := s.regs.icr &&& ~~~v } }.respond codeOk 0)
        else Refuses (exec (.wr32Icr v) s)) ∧
      ∃ t, exec (.wr32Icr 0xFFFFFFFF) s = .next t ∧ t.regs.icr = 0 ∧ irqLine t = false) ∧
    (CanIssue .init s →
      if v &&& 0xFFFFFF7F = 0 then
        exec (.wr32Ims v) s = .next ({ s with regs := { s.regs with ims := s.regs.ims ||| v } }.respond codeOk 0)
      else Refuses (exec (.wr32Ims v) s))

/-! Synchronisation, ring primitives, ports (R82 to R84, R182 to R189). -/

/-- R82 to R84: FENCE, by a thread or the interrupt context (R315, log 9), changes nothing; LOCK, of the transmit lock by a thread and of the receive lock by the
interrupt context (R315, R348), takes a free lock and is refused to its holder; UNLOCK frees a lock its issuer holds
and is refused otherwise. R83's "has no step" while another agent holds the lock is, in the model's form (log 14), a
LOCK that stays in progress and is tried again. -/
def Obligations.Synchronisation : Prop :=
  ∀ (s : State) (r : Ring),
    (CanIssue .path s → exec .fence s = .next (s.respond codeOk 0)) ∧
    (CanIssue (ringClass r) s → s.lockOf r = .free →
      exec (.lock r) s = .next ((s.setLock r (.held s.issuer)).respond codeOk 0)) ∧
    (CanIssue (ringClass r) s → s.lockOf r = .held s.issuer → Refuses (exec (.lock r) s)) ∧
    (∀ a, CanIssue (ringClass r) s → s.lockOf r = .held a → a ≠ s.issuer →
      ∃ t, exec (.lock r) s = .next t ∧ t = { s with ops := t.ops } ∧ OpBecomes (some (.lockWait r)) s t) ∧
    (s.failed = false → s.opOf s.issuer = some (.lockWait r) → s.lockOf r = .free →
      ∃ t, proceed s = .next t ∧ t = { s.setLock r (.held s.issuer) with ops := t.ops }.respond codeOk 0 ∧
        OpBecomes none s t) ∧
    (∀ a, s.failed = false → s.opOf s.issuer = some (.lockWait r) → s.lockOf r = .held a → a ≠ s.issuer →
      proceed s = .next s) ∧
    (CanIssue (ringClass r) s → s.lockOf r = .held s.issuer →
      exec (.unlock r) s = .next ((s.setLock r .free).respond codeOk 0)) ∧
    (CanIssue (ringClass r) s → s.lockOf r ≠ .held s.issuer → Refuses (exec (.unlock r) s))

/-- R184: SLOT_STATUS returns the byte at `base + 16 i + 12` and changes nothing; it is refused when `i >= N`, without
the ring's lock (U21, log 10), before construction (D25, log 28), and where the descriptors are no memory (R77). -/
def Obligations.SlotStatusReads : Prop :=
  ∀ (s : State) (r : Ring) (i : Idx), CanIssue (ringClass r) s →
    if s.lockOf r = .held s.issuer ∧ ringReady r s = true ∧ i.toNat < ringSize r s ∧
      inMemory s.cfg (runAt (ringBase r s) (ringBytes r s)) = true then
      exec (.slotStatus r i) s =
        .next (s.respond codeOk ((s.byteAt (ringBase r s + BitVec.ofNat 64 (16 * i.toNat + 12))).setWidth 32))
    else Refuses (exec (.slotStatus r i) s)

/-- R182: MARK_HW_OWNED assigns the command byte (transmit only) and clears the status byte of a slot, under
the ring's lock, after construction (D25, log 28), with command bits that exist and with descriptors that are memory
(R77); no other byte and no other state changes. On the receive ring the interrupt context issues it (log 9). -/
def Obligations.MarkHwOwnedWrites : Prop :=
  ∀ (s : State) (r : Ring) (i : Idx) (c : Byte), CanIssue (ringClass r) s →
    if s.lockOf r = .held s.issuer ∧ ringReady r s = true ∧ i.toNat < ringSize r s ∧ ringInMemory r s = true ∧
      (r = .tx → c &&& ~~~0x09 = 0) ∧ (r = .rx → c = 0) then
      ∃ t, exec (.markHwOwned r i c) s = .next t ∧ t = { s with mem := t.mem }.respond codeOk 0 ∧
        descStatus r i.toNat t = 0 ∧
        match r with
        | .tx => txdCmd i.toNat t = c ∧
            ∀ a, a ≠ descAddr .tx i.toNat 11 s → a ≠ descAddr .tx i.toNat 12 s → t.byteAt a = s.byteAt a
        | .rx => ∀ a, a ≠ descAddr .rx i.toNat 12 s → t.byteAt a = s.byteAt a
    else Refuses (exec (.markHwOwned r i c) s)

/-- R183: INSTALL_BUF swaps the slot's occupant under the ring's lock, returns the previous one and records
the new one's holder; it is refused for a buffer that stands in another slot and before construction (D25, log 28);
memory and registers stay. A handle in the pool becomes live, with a length within its area and an area of at least
RX_BUF_BYTES apart from every region in use; where memory has no place for such an area, it is refused (R75, R322).
That a pool handle may be installed is the model's choice (log 16). -/
def Obligations.InstallBufSwaps : Prop :=
  ∀ (s : State) (r : Ring) (i : Idx) (h : Handle), CanIssue (ringClass r) s →
    (s.lockOf r ≠ .held s.issuer ∨ ringSize r s ≤ i.toNat ∨ ringReady r s = false → Refuses (exec (.installBuf r i h) s)) ∧
    (s.lockOf r = .held s.issuer → i.toNat < ringSize r s → ringReady r s = true →
      (h ≠ 0 → inOtherSlot h r i.toNat s = true → Refuses (exec (.installBuf r i h) s)) ∧
      (h = 0 → exec (.installBuf r i h) s =
        .next ((s.setSlots r ((s.slots r).set i.toNat none)).respond codeOk ((s.slotAt r i.toNat).getD 0))) ∧
      (h ≠ 0 → inOtherSlot h r i.toNat s = false → s.bufOf h = none →
        (∀ a, placeable s.cfg (runAt a s.cfg.rxBufBytes) (liveRegions s) = false) → Refuses (exec (.installBuf r i h) s)) ∧
      (h ≠ 0 → inOtherSlot h r i.toNat s = false →
        (s.bufOf h ≠ none ∨ ∃ a, placeable s.cfg (runAt a s.cfg.rxBufBytes) (liveRegions s) = true) →
        ∃ t, exec (.installBuf r i h) s = .next t ∧
          t = { s.setSlots r ((s.slots r).set i.toNat (some h)) with
            bufs := t.bufs, draws := t.draws }.respond codeOk ((s.slotAt r i.toNat).getD 0) ∧
          t.holderOf h = .ring r i.toNat ∧ OtherBuffersSame h s t ∧
          (∀ b, s.bufOf h = some b → t.bufOf h = some { b with holder := .ring r i.toNat } ∧ t.draws = s.draws) ∧
          (s.bufOf h = none → ∃ b, t.bufOf h = some b ∧ b.len ≤ b.area ∧ s.cfg.rxBufBytes ≤ b.area ∧
            placeable s.cfg (runAt b.addr b.area) (liveRegions s) = true)))

/-- R186: a grant the rule admits (not `none`, not live, its area memory and apart from every live region) becomes a
live buffer of length 0 held by the issuer and is returned; failure returns code 2 and changes no buffer; an input
grant the rule does not admit is refused (R75, R322, log 6); with no input answer the allocator's own is one of the
first two. Nothing else changes. The headroom is any value (log 31). That every host agent may issue ALLOC, beside
R315's table, which gives it to the interrupt context, is the model's choice (log 9). -/
def Obligations.AllocAnswers : Prop :=
  ∀ (s : State) (headroom : Idx), CanIssue .host s →
    (∀ (g : Grant) (rest : List (Option Grant)), s.allocs = some g :: rest →
      if g.handle ≠ 0 ∧ s.bufOf g.handle = none ∧
        placeable s.cfg (runAt g.addr s.cfg.rxBufBytes) (liveRegions s) = true then
        ∃ t, exec (.alloc headroom) s = .next t ∧
          t = ({ s with bufs := t.bufs, allocs := rest }.emit (.alloc headroom (some g.handle))).respond codeOk g.handle ∧
          t.bufOf g.handle =
            some { addr := g.addr, len := 0, area := s.cfg.rxBufBytes, holder := .caller s.issuer } ∧
          OtherBuffersSame g.handle s t
      else Refuses (exec (.alloc headroom) s)) ∧
    (∀ rest : List (Option Grant), s.allocs = none :: rest →
      exec (.alloc headroom) s =
        .next (({ s with allocs := rest }.emit (.alloc headroom none)).respond codeAllocationExhausted 0)) ∧
    (s.allocs = [] → ∃ t, exec (.alloc headroom) s = .next t ∧
      (t = ({ s with draws := t.draws }.emit (.alloc headroom none)).respond codeAllocationExhausted 0 ∨
        ∃ g : Grant, g.handle ≠ 0 ∧ s.bufOf g.handle = none ∧
          placeable s.cfg (runAt g.addr s.cfg.rxBufBytes) (liveRegions s) = true ∧
          t = ({ s with bufs := t.bufs, draws := t.draws }.emit (.alloc headroom (some g.handle))).respond codeOk
            g.handle ∧
          t.bufOf g.handle =
            some { addr := g.addr, len := 0, area := s.cfg.rxBufBytes, holder := .caller s.issuer } ∧
          OtherBuffersSame g.handle s t))

/-- R187: FREE puts a live buffer into the pool and changes nothing else; of a buffer in the pool it is the
double-free fault. That a thread issues it is R315's table (log 9); that a live buffer of any holder is freed, where
U16 speaks of the caller's, and that `none` is refused are the model's readings (log 17). -/
def Obligations.FreeReturnsToPool : Prop :=
  ∀ (s : State) (h : Handle), CanIssue .thread s →
    (h = 0 → Refuses (exec (.free h) s)) ∧
    (h ≠ 0 → s.bufOf h = none → exec (.free h) s = .fault .poolBuffer) ∧
    (∀ b, h ≠ 0 → s.bufOf h = some b →
      ∃ t, exec (.free h) s = .next t ∧
        t = ({ s with bufs := t.bufs }.emit (.free h)).respond codeOk 0 ∧
        t.holderOf h = .pool ∧ OtherBuffersSame h s t)

/-- R188, R189: APPEND sets the payload length of a live buffer, to at most `RX_BUF_BYTES` (D23), and moves no byte;
DELIVER hands it upstream. That the interrupt context issues them is R315's table (log 9); that both fault on a buffer
in the pool (U16), take a live buffer of any holder and are refused for `none` are the model's readings (log 17). -/
def Obligations.AppendAndDeliver : Prop :=
  ∀ (s : State) (h : Handle) (len : Idx), CanIssue .irq s →
    (h = 0 → Refuses (exec (.append h len) s) ∧ Refuses (exec (.deliver h) s)) ∧
    (h ≠ 0 → s.cfg.rxBufBytes < len.toNat → Refuses (exec (.append h len) s)) ∧
    (h ≠ 0 → len.toNat ≤ s.cfg.rxBufBytes → s.bufOf h = none → Faults (exec (.append h len) s)) ∧
    (h ≠ 0 → s.bufOf h = none → Faults (exec (.deliver h) s)) ∧
    (∀ b, h ≠ 0 → len.toNat ≤ s.cfg.rxBufBytes → s.bufOf h = some b →
      ∃ t, exec (.append h len) s = .next t ∧
        t = ({ s with bufs := t.bufs }.emit (.append h len.toNat)).respond codeOk 0 ∧
        t.bufOf h = some { b with len := len.toNat } ∧ OtherBuffersSame h s t) ∧
    (∀ b, h ≠ 0 → s.bufOf h = some b →
      ∃ t, exec (.deliver h) s = .next t ∧
        t = ({ s with bufs := t.bufs }.emit (.deliver h)).respond codeOk 0 ∧
        t.bufOf h = some { b with holder := .upstream } ∧ OtherBuffersSame h s t)

/-! Construction (R191, R192, R302, R303). -/

/-- R191, R192, R303, R305: RING_INIT is refused for a ring that is constructed, and when the base is misaligned or
the ring would lie outside memory or overlap a region in use (R72, R75 to R77, log 18); otherwise a ring size of 0,
above 65528, or whose byte length is no multiple of 128 answers MalformedGeometry and sets `failed`; nothing else
changes. -/
def Obligations.ConstructionRefusedOrMalformed : Prop :=
  ∀ (s : State) (n : Idx), CanIssue .init s →
    (s.txReady = true ∨ s.cfg.txBase.toNat % 16 ≠ 0 ∨
      placeable s.cfg (runAt s.cfg.txBase (16 * n.toNat)) (liveRegions s) = false → Refuses (exec (.ringInitTx n) s)) ∧
    (s.rxReady = true ∨ s.cfg.rxBase.toNat % 16 ≠ 0 ∨
      placeable s.cfg (runAt s.cfg.rxBase (16 * n.toNat)) (liveRegions s) = false → Refuses (exec (.ringInitRx n) s)) ∧
    (n.toNat = 0 ∨ 65528 < n.toNat ∨ (16 * n.toNat) % 128 ≠ 0 →
      (s.txReady = false → s.cfg.txBase.toNat % 16 = 0 →
        placeable s.cfg (runAt s.cfg.txBase (16 * n.toNat)) (liveRegions s) = true →
        exec (.ringInitTx n) s = .next ({ s with failed := true }.respond 3 0)) ∧
      (s.rxReady = false → s.cfg.rxBase.toNat % 16 = 0 →
        placeable s.cfg (runAt s.cfg.rxBase (16 * n.toNat)) (liveRegions s) = true →
        exec (.ringInitRx n) s = .next ({ s with failed := true }.respond 3 0)))

/-- R191: RING_INIT_TX programs base, length, head and tail, writes every descriptor as zero but for Done,
empties the slots and sets `tx_ready`; memory outside the ring does not change. -/
def Obligations.TransmitRingConstructed : Prop :=
  ∀ (s : State) (n : Idx), CanIssue .init s → s.txReady = false → 0 < n.toNat → n.toNat ≤ 65528 → n.toNat % 8 = 0 →
    s.cfg.txBase.toNat % 16 = 0 →
    placeable s.cfg (runAt s.cfg.txBase (16 * n.toNat)) (liveRegions s) = true →
    ∃ t, exec (.ringInitTx n) s = .next t ∧
      t = { s with
        regs := { s.regs with
          tdbal := s.cfg.txBase.extractLsb' 0 32, tdbah := s.cfg.txBase.extractLsb' 32 32
          tdlen := BitVec.ofNat 32 (16 * n.toNat), tdh := 0, tdt := 0 }
        mem := t.mem, txBuf := List.replicate n.toNat none, txPending := 0, txInflight := none
        txReady := true }.respond codeOk 0 ∧
      (∀ i, i < n.toNat → descImage .tx i t = BitVec.ofNat 128 (2 ^ 96)) ∧
      ∀ a, outside s.cfg.txBase (16 * n.toNat) a → t.byteAt a = s.byteAt a

/-- R192: RING_INIT_RX allocates one buffer per slot in ascending order, arms every descriptor with its
buffer's address and all other fields zero, records the holders, sets `RDH = 0`, `RDT = n - 1` and `rx_ready`;
memory outside the ring does not change. -/
def Obligations.ReceiveRingConstructed : Prop :=
  ∀ (s : State) (n : Idx) (gs : List Grant) (rest : List (Option Grant)), CanIssue .init s → s.rxReady = false →
    0 < n.toNat → n.toNat ≤ 65528 → n.toNat % 8 = 0 → s.cfg.rxBase.toNat % 16 = 0 →
    placeable s.cfg (runAt s.cfg.rxBase (16 * n.toNat)) (liveRegions s) = true →
    gs.length = n.toNat → s.allocs = gs.map some ++ rest →
    grantsOk s.cfg s.bufs (runAt s.cfg.rxBase (16 * n.toNat) :: liveRegions s) gs = true →
    ∃ t, exec (.ringInitRx n) s = .next t ∧
      t = { s with
        regs := { s.regs with
          rdbal := s.cfg.rxBase.extractLsb' 0 32, rdbah := s.cfg.rxBase.extractLsb' 32 32
          rdlen := BitVec.ofNat 32 (16 * n.toNat), rdh := 0, rdt := BitVec.ofNat 32 (n.toNat - 1) }
        mem := t.mem, bufs := t.bufs, rxBuf := gs.map (fun g : Grant => some g.handle), rxReady := true, allocs := rest
        out := s.out ++ gs.map (fun g : Grant => Output.alloc s.cfg.headroom (some g.handle)) }.respond codeOk 0 ∧
      (∀ (i : Nat) (g : Grant), gs[i]? = some g →
        descImage .rx i t = g.addr.setWidth 128 ∧
        t.bufOf g.handle =
          some { addr := g.addr, len := 0, area := s.cfg.rxBufBytes, holder := .ring .rx i }) ∧
      (∀ h : Handle, (∀ g ∈ gs, g.handle ≠ h) → t.bufOf h = s.bufOf h) ∧
      ∀ a, outside s.cfg.rxBase (16 * n.toNat) a → t.byteAt a = s.byteAt a

/-- R302, U8: when an ALLOC of the population loop answers failure, RING_INIT_RX answers
AllocationExhausted and sets `failed`; `rx_ready` stays 0, the buffers already allocated are in the pool or with
their slot, and nothing of the transmit side, no other buffer and no memory outside the ring changes. -/
def Obligations.AllocationExhaustedIsFatal : Prop :=
  ∀ (s : State) (n : Idx) (gs : List Grant) (rest : List (Option Grant)), CanIssue .init s → s.rxReady = false →
    n.toNat ≤ 65528 → n.toNat % 8 = 0 → s.cfg.rxBase.toNat % 16 = 0 →
    placeable s.cfg (runAt s.cfg.rxBase (16 * n.toNat)) (liveRegions s) = true →
    gs.length < n.toNat → s.allocs = gs.map some ++ none :: rest →
    grantsOk s.cfg s.bufs (runAt s.cfg.rxBase (16 * n.toNat) :: liveRegions s) gs = true →
    ∃ t, exec (.ringInitRx n) s = .next t ∧
      t = { s with
        regs := { s.regs with
          rdbal := s.cfg.rxBase.extractLsb' 0 32, rdbah := s.cfg.rxBase.extractLsb' 32 32
          rdlen := BitVec.ofNat 32 (16 * n.toNat) }
        mem := t.mem, bufs := t.bufs, rxBuf := t.rxBuf, failed := true, allocs := rest, draws := t.draws
        out := s.out ++ gs.map (fun g : Grant => Output.alloc s.cfg.headroom (some g.handle)) ++
          [Output.alloc s.cfg.headroom none] }.respond codeAllocationExhausted 0 ∧
      (∀ (i : Nat) (g : Grant), gs[i]? = some g → t.holderOf g.handle = .pool ∨ t.holderOf g.handle = .ring .rx i) ∧
      (∀ h : Handle, (∀ g ∈ gs, g.handle ≠ h) → t.bufOf h = s.bufOf h) ∧
      ∀ a, outside s.cfg.rxBase (16 * n.toNat) a → t.byteAt a = s.byteAt a

/-! TRANSMIT (R200 to R214). -/

/-- R201 to R203, R209: T1 takes a free lock or waits; T2 reads the tail; T3 tests bit 0 of the status byte
of the slot and goes to T4 or T9; T9 unlocks and ends with RingBusy. Nothing else changes. -/
def Obligations.TransmitTestsTheTailSlot : Prop :=
  ∀ (s : State) (c : TxCtx), s.failed = false → s.opOf s.issuer = some (.transmit c) →
    (c.phase = .t1 → s.txLock = .free →
      ∃ t, proceed s = .next t ∧ t = { s with txLock := .held s.issuer, ops := t.ops } ∧
        OpBecomes (some (.transmit { c with phase := .t2 })) s t) ∧
    (∀ a, c.phase = .t1 → s.txLock = .held a → a ≠ s.issuer → proceed s = .next s) ∧
    (c.phase = .t2 →
      ∃ t, proceed s = .next t ∧ t = { s with ops := t.ops } ∧
        OpBecomes (some (.transmit { c with phase := .t3, t := s.regs.tdt.extractLsb' 0 16 })) s t) ∧
    (c.phase = .t3 →
      ∃ t, proceed s = .next t ∧ t = { s with ops := t.ops } ∧
        OpBecomes
          (some (.transmit { c with
            st := s.byteAt (descAddr .tx c.t.toNat 12 s)
            phase := if (s.byteAt (descAddr .tx c.t.toNat 12 s)).getLsbD 0 = true then .t4 else .t9 })) s t) ∧
    (c.phase = .t9 → s.txLock = .held s.issuer →
      ∃ t, proceed s = .next t ∧ t = { s with txLock := .free, ops := t.ops }.respond codeRingBusy 0 ∧
        OpBecomes none s t)

/-- R204 to R208: T4 empties the slot and frees the buffer that was in it; T5 sets the command byte to 0x09
and clears the status byte; T6 installs the buffer and writes its address and length; T7 advances the tail
by one and counts one more pending slot; T8 unlocks and ends with OK. Nothing else changes. T5 writes to memory the
platform provides (R77); T6 is refused, by the model's second test of R200's contract (log 22), where the buffer is no
longer the issuer's or its length not 1 to 0xFFFF. -/
def Obligations.TransmitFillsAndCommitsTheSlot : Prop :=
  ∀ (s : State) (c : TxCtx), s.failed = false → s.opOf s.issuer = some (.transmit c) →
    (c.phase = .t4 → s.slotAt .tx c.t.toNat = none →
      ∃ t, proceed s = .next t ∧ t = { s with txBuf := s.txBuf.set c.t.toNat none, ops := t.ops } ∧
        OpBecomes (some (.transmit { c with phase := .t5, old := none })) s t) ∧
    (∀ h b, c.phase = .t4 → s.slotAt .tx c.t.toNat = some h → s.bufOf h = some b →
      ∃ t, proceed s = .next t ∧
        t = { s with txBuf := s.txBuf.set c.t.toNat none, bufs := t.bufs, ops := t.ops }.emit (.free h) ∧
        t.holderOf h = .pool ∧ OtherBuffersSame h s t ∧
        OpBecomes (some (.transmit { c with phase := .t5, old := some h })) s t) ∧
    (c.phase = .t5 → s.txLock = .held s.issuer → s.txReady = true → c.t.toNat < ringSize .tx s →
      ringInMemory .tx s = true →
      ∃ t, proceed s = .next t ∧ t = { s with mem := t.mem, ops := t.ops } ∧
        txdCmd c.t.toNat t = 0x09 ∧ descStatus .tx c.t.toNat t = 0x00 ∧
        (∀ a, a ≠ descAddr .tx c.t.toNat 11 s → a ≠ descAddr .tx c.t.toNat 12 s → t.byteAt a = s.byteAt a) ∧
        OpBecomes (some (.transmit { c with phase := .t6 })) s t) ∧
    (∀ b, c.phase = .t6 → s.txLock = .held s.issuer → c.t.toNat < ringSize .tx s → s.txReady = true →
      s.bufOf c.b = some b → b.holder = .caller s.issuer → 1 ≤ b.len → b.len ≤ 0xFFFF →
      inOtherSlot c.b .tx c.t.toNat s = false →
      ∃ t, proceed s = .next t ∧
        t = { s with mem := t.mem, txBuf := s.txBuf.set c.t.toNat (some c.b), bufs := t.bufs, ops := t.ops } ∧
        t.bufOf c.b = some { b with holder := .ring .tx c.t.toNat } ∧ OtherBuffersSame c.b s t ∧
        descPayload .tx c.t.toNat t = b.addr ∧ (descLength .tx c.t.toNat t).toNat = b.len ∧
        (∀ a, outside (descAddr .tx c.t.toNat 0 s) 10 a → t.byteAt a = s.byteAt a) ∧
        OpBecomes (some (.transmit { c with phase := .t7 })) s t) ∧
    (c.phase = .t6 →
      s.holderOf c.b ≠ .caller s.issuer ∨ s.payloadLength c.b = 0 ∨ 0xFFFF < s.payloadLength c.b → Refuses (proceed s)) ∧
    (c.phase = .t7 → s.txReady = true → s.txLock = .held s.issuer → 1 < ringSize .tx s →
      c.t.toNat = tailIndex .tx s → c.t.toNat < ringSize .tx s →
      s.txPending < ringSize .tx s →
      ∃ t, proceed s = .next t ∧
        t = { s with
          regs := { s.regs with tdt := BitVec.ofNat 32 ((c.t.toNat + 1) % ringSize .tx s) }
          txPending := s.txPending + 1, ops := t.ops } ∧
        OpBecomes (some (.transmit { c with phase := .t8 })) s t) ∧
    (c.phase = .t8 → s.txLock = .held s.issuer →
      ∃ t, proceed s = .next t ∧ t = { s with txLock := .free, ops := t.ops }.respond codeOk 0 ∧ OpBecomes none s t)

/-- R200: a TRANSMIT that finds Done set at the tail and the lock free ends with OK in one run: the buffer
that was in the slot is freed, the descriptor carries the new buffer's address and length, command 0x09 and
status 0, the slot names the buffer, the tail has advanced by one and one more slot is pending; no other byte of
memory, buffer, register or flag changes. -/
def Obligations.TransmitEnqueues : Prop :=
  ∀ (s : State) (b : Handle) (buf : Buffer), CanIssue .thread s → s.txReady = true → s.txLock = .free →
    1 < ringSize .tx s → ringInMemory .tx s = true → tailIndex .tx s < ringSize .tx s → s.txPending < ringSize .tx s →
    b ≠ 0 → s.bufOf b = some buf → buf.holder = .caller s.issuer → 1 ≤ buf.len → buf.len ≤ 0xFFFF →
    ddSet (descStatus .tx (tailIndex .tx s) s) = true → inOtherSlot b .tx (tailIndex .tx s) s = false →
    (∀ old, s.slotAt .tx (tailIndex .tx s) = some old → old ≠ b ∧ s.bufOf old ≠ none) →
    ∃ t, exec (.transmit b) s = .next t ∧
      t = { s with
        regs := { s.regs with tdt := BitVec.ofNat 32 ((tailIndex .tx s + 1) % ringSize .tx s) }
        mem := t.mem, txBuf := s.txBuf.set (tailIndex .tx s) (some b), bufs := t.bufs
        txPending := s.txPending + 1
        out := s.out ++ ((s.slotAt .tx (tailIndex .tx s)).map Output.free).toList }.respond codeOk 0 ∧
      t.bufOf b = some { buf with holder := .ring .tx (tailIndex .tx s) } ∧
      (∀ old, s.slotAt .tx (tailIndex .tx s) = some old → t.holderOf old = .pool) ∧
      (∀ h, h ≠ b → s.slotAt .tx (tailIndex .tx s) ≠ some h → t.bufOf h = s.bufOf h) ∧
      descPayload .tx (tailIndex .tx s) t = buf.addr ∧ (descLength .tx (tailIndex .tx s) t).toNat = buf.len ∧
      txdCmd (tailIndex .tx s) t = 0x09 ∧ descStatus .tx (tailIndex .tx s) t = 0x00 ∧
      ∀ a, outside (descAddr .tx (tailIndex .tx s) 0 s) 10 a → a ≠ descAddr .tx (tailIndex .tx s) 11 s →
        a ≠ descAddr .tx (tailIndex .tx s) 12 s → t.byteAt a = s.byteAt a

/-- R200, R201, R209: RingBusy (Done clear at the tail) changes nothing but the trace of results; a lock held
by another agent leaves the TRANSMIT waiting at T1 with nothing else changed; a TRANSMIT outside its contract
is refused. -/
def Obligations.TransmitBusyOrWaiting : Prop :=
  ∀ (s : State) (b : Handle), CanIssue .thread s →
    (s.txReady = true → b ≠ 0 → s.holderOf b = .caller s.issuer → 1 ≤ s.payloadLength b → s.payloadLength b ≤ 0xFFFF →
      (s.txLock = .free → ddSet (descStatus .tx (tailIndex .tx s) s) = false →
        exec (.transmit b) s = .next (s.respond codeRingBusy 0)) ∧
      (∀ a, s.txLock = .held a → a ≠ s.issuer →
        ∃ t c, exec (.transmit b) s = .next t ∧ t = { s with ops := t.ops } ∧ OpBecomes (some (.transmit c)) s t ∧
          c.phase = .t1 ∧ c.b = b)) ∧
    (s.txReady = false ∨ b = 0 ∨ s.holderOf b ≠ .caller s.issuer ∨ s.payloadLength b = 0 ∨ 0xFFFF < s.payloadLength b →
      Refuses (exec (.transmit b) s))

/-- R213, R287 f, R301: with Done clear in exactly the hardware-owned slots, TRANSMIT answers RingBusy
exactly when all `N_TX` slots are hardware-owned. -/
def Obligations.RingBusyExactlyWhenFull : Prop :=
  ∀ (s : State) (b : Handle), CanIssue .thread s → TxLegal s → TxExact s → s.txReady = true → s.txLock = .free →
    b ≠ 0 → s.holderOf b = .caller s.issuer → 1 ≤ s.payloadLength b → s.payloadLength b ≤ 0xFFFF →
    (exec (.transmit b) s = .next (s.respond codeRingBusy 0) ↔ s.txPending = ringSize .tx s)

/-- R287 b and c, over three operations run whole: every TRANSMIT, DEV_TX_FETCH and DEV_TX_DONE keeps
Done clear in exactly the hardware-owned slots, and the command 0x09 and a length of at least 1 in each of them. -/
def Obligations.TransmitRingStaysExact : Prop :=
  ∀ (s t : State) (i : Instr), (∃ b, i = .transmit b) ∨ i = .devTxFetch ∨ i = .devTxDone →
    TxLegal s → TxExact s → exec i s = .next t → TxExact t

/-- R281 to R283: the transitions of a slot. Transmit: T3 on a Done slot that is not hardware-owned makes it
SoftwareFree; the tail write of T7 makes it HardwareOwned; DEV_TX_DONE makes it Completed. Receive: D2 on a Done slot
makes it SoftwareFree; a D3 whose ALLOC fails gives it back to Completed; D6 makes it HardwareOwned; D7 makes the
slot that was in reserve available; an arriving frame makes the slot at the head Completed. -/
def Obligations.SlotLifeCycles : Prop :=
  (∀ s t : State, TxLegal s →
    (∀ c : TxCtx, proceed s = .next t → s.opOf s.issuer = some (.transmit c) → c.phase = .t3 →
      ddSet (descStatus .tx c.t.toNat s) = true → inHwset c.t.toNat s = false →
      slotState .tx c.t.toNat t = .softwareFree) ∧
    (∀ c : TxCtx, proceed s = .next t → s.opOf s.issuer = some (.transmit c) → c.phase = .t7 → s.txReady = true →
      1 < ringSize .tx s → c.t.toNat = tailIndex .tx s → slotState .tx c.t.toNat t = .hardwareOwned) ∧
    (∀ f, exec .devTxDone s = .next t → s.txInflight = some f → enSet s.regs.tctl = true → s.txReady = true →
      s.ops.any (fun e => opHasTx f.slot.toNat e.2) = false →
      slotState .tx f.slot.toNat s = .hardwareOwned ∧ slotState .tx f.slot.toNat t = .completed)) ∧
  (∀ (s t : State) (c : RxCtx), proceed s = .next t → s.opOf s.issuer = some (.irqHandler (.i3 c)) →
    (c.phase = .d2 → ddSet (descStatus .rx c.next.toNat s) = true → slotState .rx c.next.toNat t = .softwareFree) ∧
    (c.phase = .d3 → s.ops = [(agentKey s.issuer, .irqHandler (.i3 c))] → allocHandle [] s = none →
      ddSet (descStatus .rx c.next.toNat s) = true →
      slotState .rx c.next.toNat s = .softwareFree ∧ slotState .rx c.next.toNat t = .completed) ∧
    (c.phase = .d6 → s.ops = [(agentKey s.issuer, .irqHandler (.i3 c))] →
      slotState .rx c.next.toNat s = .softwareFree ∧ slotState .rx c.next.toNat t = .hardwareOwned) ∧
    (c.phase = .d7 → RxLegal s → s.rxReady = true → c.next.toNat = ringNext (tailIndex .rx s) (ringSize .rx s) →
      c.next.toNat ≠ headIndex .rx s →
      ∀ i, i < ringSize .rx s → (inWindow i t = true ↔ inWindow i s = true ∨ i = tailIndex .rx s))) ∧
  ∀ (s t : State) (len : Idx), exec (.devRxFrame len) s = .next t → enSet s.regs.rctl = true → s.rxReady = true →
    ringDist (headIndex .rx s) (tailIndex .rx s) (ringSize .rx s) ≠ 0 →
    s.ops.any (fun e => opHasRx (headIndex .rx s) e.2) = false →
    ddSet (descStatus .rx (headIndex .rx s) s) = false →
    slotState .rx (headIndex .rx s) s = .hardwareOwned ∧ slotState .rx (headIndex .rx s) t = .completed

/-- R43, R190 ("whatever the caller did before TRANSMIT", log 22): a caller with no operation in progress fills a
buffer it holds: the bytes stand in its payload area and their number becomes its length; nothing else changes. Of a
buffer it does not hold, beyond the buffer's area, or while its own operation is in progress, it is refused. R87, U7
(log 22): software that overwrites the descriptor or the payload of a slot it has given to the hardware, and whose
Done it has not observed, changes those bytes and nothing else; of any other slot it is refused. -/
def Obligations.CallerWritesItsBuffer : Prop :=
  (∀ (s : State) (r : Ring) (p : Part) (i off : Nat) (bytes : List Byte), ringReady r s = true → i < ringSize r s →
    (GivenToHardware r i s →
      (off + bytes.length ≤ 16 →
        ∃ t, mutate r .descriptor i off bytes s = .next t ∧ t = { s with mem := t.mem } ∧
          (∀ k x, bytes[k]? = some x → t.byteAt (descAddr r i (off + k) s) = x) ∧
          ∀ a, outside (descAddr r i off s) bytes.length a → t.byteAt a = s.byteAt a) ∧
      ∀ h b, s.slotAt r i = some h → s.bufOf h = some b → off + bytes.length ≤ b.area → bytes.length ≤ 2 ^ 64 →
        ∃ t, mutate r .payload i off bytes s = .next t ∧ t = { s with mem := t.mem } ∧
          (∀ k x, bytes[k]? = some x → t.byteAt (b.addr + BitVec.ofNat 64 (off + k)) = x) ∧
          ∀ a, outside (b.addr + BitVec.ofNat 64 off) bytes.length a → t.byteAt a = s.byteAt a) ∧
    (¬ GivenToHardware r i s → Refuses (mutate r p i off bytes s))) ∧
  ∀ (s : State) (h : Handle) (bytes : List Byte),
    (s.holderOf h ≠ .caller s.issuer ∨ s.opOf s.issuer ≠ none → Refuses (prepare h bytes s)) ∧
    ∀ b, s.opOf s.issuer = none → s.bufOf h = some b → b.holder = .caller s.issuer →
      (b.area < bytes.length → Refuses (prepare h bytes s)) ∧
      (bytes.length ≤ b.area → bytes.length ≤ 2 ^ 64 →
        ∃ t, prepare h bytes s = .next t ∧ t = { s with mem := t.mem, bufs := t.bufs } ∧
          t.bufOf h = some { b with len := bytes.length } ∧ OtherBuffersSame h s t ∧
          (∀ k x, bytes[k]? = some x → t.byteAt (b.addr + BitVec.ofNat 64 k) = x) ∧
          ∀ a, outside b.addr bytes.length a → t.byteAt a = s.byteAt a)

/-! RX_DRAIN (R220 to R235). -/

/-- R221 to R223, R228: D1 reads the tail and computes the next slot; D2 tests bit 0 of its status byte; D3 allocates
the replacement, and on failure leaves the slot as it is (an input grant that R186 does not admit is refused, log 6);
DX ends the drain, and its handler goes on at I4 (R240). -/
def Obligations.DrainTestsAndAllocates : Prop :=
  ∀ (s : State) (c : RxCtx), s.failed = false → s.opOf s.issuer = some (.irqHandler (.i3 c)) →
    (c.phase = .d1 →
      ∃ t, proceed s = .next t ∧ t = { s with ops := t.ops } ∧
        OpBecomes
          (some (.irqHandler (.i3 { c with
            phase := .d2, r := s.regs.rdt.extractLsb' 0 16
            next := BitVec.ofNat 16 (((s.regs.rdt.extractLsb' 0 16).toNat + 1) % ringSize .rx s) }))) s t) ∧
    (c.phase = .d2 →
      ∃ t, proceed s = .next t ∧ t = { s with ops := t.ops } ∧
        OpBecomes
          (some (.irqHandler (.i3 { c with
            st := s.byteAt (descAddr .rx c.next.toNat 12 s)
            phase := if (s.byteAt (descAddr .rx c.next.toNat 12 s)).getLsbD 0 = true then .d3 else .dx }))) s t) ∧
    (∀ h, c.phase = .d3 → badGrant [] s = false → allocHandle [] s = some h →
      ∃ t, proceed s = .next t ∧
        t = { s with bufs := t.bufs, allocs := t.allocs, draws := t.draws, ops := t.ops }.emit
          (.alloc s.cfg.headroom (some h)) ∧
        s.bufOf h = none ∧ t.holderOf h = .caller s.issuer ∧ t.payloadLength h = 0 ∧ OtherBuffersSame h s t ∧
        OpBecomes (some (.irqHandler (.i3 { c with phase := .d4, nb := some h }))) s t) ∧
    (c.phase = .d3 → badGrant [] s = true → Refuses (proceed s)) ∧
    (c.phase = .d3 → badGrant [] s = false → allocHandle [] s = none →
      ∃ t, proceed s = .next t ∧
        t = { s with allocs := t.allocs, draws := t.draws, ops := t.ops }.emit (.alloc s.cfg.headroom none) ∧
        OpBecomes (some (.irqHandler (.i3 { c with phase := .dx, nb := none }))) s t) ∧
    (c.phase = .dx →
      ∃ t, proceed s = .next t ∧ t = { s with ops := t.ops } ∧
        OpBecomes (some (.irqHandler .i4)) s t)

/-- R224 to R227: D4 sets the length of the buffer in the slot to the reported byte count (and faults on an
empty slot); D5 delivers it; D6 installs the replacement, writes its address and clears the status byte; D7
advances the tail to the slot and goes back to D1. Nothing else changes. -/
def Obligations.DrainDeliversAndRearms : Prop :=
  ∀ (s : State) (c : RxCtx), s.failed = false → s.opOf s.issuer = some (.irqHandler (.i3 c)) →
    (c.phase = .d4 → s.slotAt .rx c.next.toNat = none → proceed s = .fault .doneSlotEmpty) ∧
    (∀ cur b, c.phase = .d4 → s.slotAt .rx c.next.toNat = some cur → s.bufOf cur = some b →
      (descLength .rx c.next.toNat s).toNat ≤ s.cfg.rxBufBytes →
      ∃ t, proceed s = .next t ∧
        t = { s with bufs := t.bufs, ops := t.ops }.emit (.append cur (descLength .rx c.next.toNat s).toNat) ∧
        t.bufOf cur = some { b with len := (descLength .rx c.next.toNat s).toNat } ∧ OtherBuffersSame cur s t ∧
        OpBecomes
          (some (.irqHandler (.i3 { c with phase := .d5, len := descLength .rx c.next.toNat s, cur := some cur }))) s t) ∧
    (∀ cur b, c.phase = .d5 → c.cur = some cur → s.bufOf cur = some b →
      ∃ t, proceed s = .next t ∧ t = { s with bufs := t.bufs, ops := t.ops }.emit (.deliver cur) ∧
        t.bufOf cur = some { b with holder := .upstream } ∧ OtherBuffersSame cur s t ∧
        OpBecomes (some (.irqHandler (.i3 { c with phase := .d6 }))) s t) ∧
    (∀ nb b, c.phase = .d6 → c.nb = some nb → s.bufOf nb = some b → s.rxLock = .held s.issuer →
      c.next.toNat < ringSize .rx s → s.rxReady = true → inOtherSlot nb .rx c.next.toNat s = false →
      ∃ t, proceed s = .next t ∧
        t = { s with mem := t.mem, rxBuf := s.rxBuf.set c.next.toNat (some nb), bufs := t.bufs, ops := t.ops } ∧
        t.bufOf nb = some { b with holder := .ring .rx c.next.toNat } ∧ OtherBuffersSame nb s t ∧
        descPayload .rx c.next.toNat t = b.addr ∧ descStatus .rx c.next.toNat t = 0x00 ∧
        (∀ a, outside (descAddr .rx c.next.toNat 0 s) 8 a → a ≠ descAddr .rx c.next.toNat 12 s →
          t.byteAt a = s.byteAt a) ∧
        OpBecomes (some (.irqHandler (.i3 { c with phase := .d7 }))) s t) ∧
    (c.phase = .d7 → c.next.toNat < ringSize .rx s → s.rxLock = .held s.issuer →
      ∃ t, proceed s = .next t ∧ t = { s with regs := { s.regs with rdt := c.next.setWidth 32 }, ops := t.ops } ∧
        OpBecomes (some (.irqHandler (.i3 { c with phase := .d1 }))) s t)

/-- R220, R223, R233: a drain, issued where the interrupt context's handler is at I3 under the receive lock (R240,
U21, log 19), changes nothing but the handler's phase when nothing is completed; with no replacement buffer it
consumes the allocator's answer and changes nothing else; outside its contract it is refused. -/
def Obligations.DrainExits : Prop :=
  ∀ s : State,
    (s.rxReady = false ∨ ¬ AtDrain s → Refuses (exec .rxDrain s)) ∧
    (AtDrain s → s.rxReady = true → 0 < ringSize .rx s →
      (ddSet (descStatus .rx (ringNext (tailIndex .rx s) (ringSize .rx s)) s) = false →
        ∃ t, exec .rxDrain s = .next t ∧ t = { s with ops := t.ops } ∧ OpBecomes (some (.irqHandler .i4)) s t) ∧
      (ddSet (descStatus .rx (ringNext (tailIndex .rx s) (ringSize .rx s)) s) = true →
        ∀ rest, s.allocs = none :: rest →
          ∃ t, exec .rxDrain s = .next t ∧
            t = { s with allocs := rest, ops := t.ops }.emit (.alloc s.cfg.headroom none) ∧
            OpBecomes (some (.irqHandler .i4)) s t))

/-- R288 b and c, over two operations run whole: a drain run alone keeps Done clear in exactly the slots of
the window and the reserved slot; so does an arriving frame whose payload area is apart from the status bytes. -/
def Obligations.ReceiveRingStaysExact : Prop :=
  (∀ s t : State, s.rxReady = true → RxLegal s → RxExact s → exec .rxDrain s = .next t → RxExact t) ∧
  (∀ (s t : State) (len : Idx), s.rxReady = true → RxLegal s → RxExact s →
    (∀ i, i < ringSize .rx s → ∀ k, k < len.toNat →
      descPayload .rx (headIndex .rx s) s + BitVec.ofNat 64 k ≠ descAddr .rx i 12 s) →
    exec (.devRxFrame len) s = .next t → RxExact t)

/-- R229, R231, R234: a drain run alone ends, with its handler at I4, and unless an ALLOC answered failure it has
consumed every completed slot: the slot after the tail is the one the device fills next. -/
def Obligations.DrainConsumesEveryCompletedSlot : Prop :=
  ∀ s t : State, s.rxReady = true → RxLegal s → RxExact s → exec .rxDrain s = .next t →
    t.opOf s.issuer = some (.irqHandler .i4) ∧
      (allocFailed (newOutputs s t) = false → ringNext (tailIndex .rx t) (ringSize .rx t) = headIndex .rx t)

/-- R230, R231: a drain run alone delivers the buffers of the slots after the tail, one each and in ring
order across the wrap, and its tail ends at the last slot it delivered. -/
def Obligations.DrainDeliversInRingOrder : Prop :=
  ∀ s t : State, s.rxReady = true → RxLegal s → exec .rxDrain s = .next t →
    ∃ k, k ≤ ringSize .rx s ∧ tailIndex .rx t = (tailIndex .rx s + k) % ringSize .rx s ∧
      (deliveries (newOutputs s t)).map some =
        (List.range k).map fun j => s.slotAt .rx ((tailIndex .rx s + 1 + j) % ringSize .rx s)

/-- R220 to R228, R230: in a handler at I3 (log 19), with the first slots after the tail completed and as many grants
to come, a drain run alone completes: it delivers each slot's buffer with the reported length in ring order, re-arms
the slot with the grant's buffer and address and status 0, and leaves the tail at the last slot it consumed; no other
register, slot, buffer, byte of memory or flag changes. -/
def Obligations.DrainDeliversAndRearmsEverySlot : Prop :=
  ∀ (s : State) (gs : List Grant) (rest : List (Option Grant)), AtDrain s → DrainReady gs rest s →
    ∃ t, exec .rxDrain s = .next t ∧
      t = { s with
        regs := { s.regs with rdt := BitVec.ofNat 32 ((tailIndex .rx s + gs.length) % ringSize .rx s) }
        mem := t.mem, rxBuf := t.rxBuf, bufs := t.bufs, allocs := rest, ops := t.ops, out := s.out ++ drainOutputs s 0 gs } ∧
      OpBecomes (some (.irqHandler .i4)) s t ∧
      (∀ (j : Nat) (g : Grant), gs[j]? = some g →
        t.slotAt .rx (drainSlot s j) = some g.handle ∧
        t.bufOf g.handle =
          some { addr := g.addr, len := 0, area := s.cfg.rxBufBytes, holder := .ring .rx (drainSlot s j) } ∧
        descPayload .rx (drainSlot s j) t = g.addr ∧ descStatus .rx (drainSlot s j) t = 0 ∧
        ∀ cur, s.slotAt .rx (drainSlot s j) = some cur → t.holderOf cur = .upstream) ∧
      (∀ i, (∀ j, j < gs.length → i ≠ drainSlot s j) → t.slotAt .rx i = s.slotAt .rx i) ∧
      (∀ h : Handle, (∀ g ∈ gs, g.handle ≠ h) → (∀ j, j < gs.length → s.slotAt .rx (drainSlot s j) ≠ some h) →
        t.bufOf h = s.bufOf h) ∧
      ∀ a, (∀ j, j < gs.length → outside (descAddr .rx (drainSlot s j) 0 s) 8 a ∧ a ≠ descAddr .rx (drainSlot s j) 12 s) →
        t.byteAt a = s.byteAt a

/-! IRQ_HANDLER (R240 to R245). -/

/-- R241 to R244: I0 sets `irq_active` and nothing else; I1 clears every cause under no lock; I2 takes the receive
lock and starts the drain; I4 unlocks, clears `irq_active` and ends. Where R243 finds the lock free, the model also
lets I2 find it held: then it waits as R83's LOCK does, in the model's form (log 14). -/
def Obligations.HandlerPhases : Prop :=
  ∀ (s : State) (p : IrqPhase), s.failed = false → s.opOf s.issuer = some (.irqHandler p) →
    (p = .i0 → s.irqActive = false →
      ∃ t, proceed s = .next t ∧ t = { s with irqActive := true, ops := t.ops } ∧
        OpBecomes (some (.irqHandler .i1)) s t) ∧
    (p = .i1 →
      ∃ t, proceed s = .next t ∧ t = { s with regs := { s.regs with icr := 0 }, ops := t.ops } ∧ irqLine t = false ∧
        OpBecomes (some (.irqHandler .i2)) s t) ∧
    (p = .i2 → s.rxLock = .free →
      ∃ t c, proceed s = .next t ∧ t = { s with rxLock := .held s.issuer, ops := t.ops } ∧
        OpBecomes (some (.irqHandler (.i3 c))) s t ∧ c.phase = .d1) ∧
    (∀ a, p = .i2 → s.rxLock = .held a → a ≠ s.issuer → proceed s = .next s) ∧
    (p = .i4 → s.rxLock = .held s.issuer →
      ∃ t, proceed s = .next t ∧ t = { s with rxLock := .free, irqActive := false, ops := t.ops } ∧ OpBecomes none s t)

/-- R245: a handler run with no completed descriptor clears ICR and changes nothing else, whatever `irq` is.
R241, R240: it is refused while another runs or before the receive ring is constructed. -/
def Obligations.HandlerWithNothingCompleted : Prop :=
  ∀ s : State, CanIssue .irq s →
    (s.rxReady = false ∨ s.irqActive = true → Refuses (exec .irqHandler s)) ∧
    (s.rxReady = true → s.irqActive = false → s.rxLock = .free → 0 < ringSize .rx s →
      ddSet (descStatus .rx (ringNext (tailIndex .rx s) (ringSize .rx s)) s) = false →
      exec .irqHandler s = .next { s with regs := { s.regs with icr := 0 } })

/-- R240 to R244: a handler run alone, with slots to drain and grants to come, completes: its effect is that of the
drain it issues at I3 (log 19), with every cause cleared and the lock and `irq_active` restored. -/
def Obligations.HandlerAcknowledgesAndDrains : Prop :=
  ∀ (s : State) (gs : List Grant) (rest : List (Option Grant)), CanIssue .irq s → s.irqActive = false →
    s.rxLock = .free → DrainReady gs rest s →
    ∃ t, exec .rxDrain ({ s with
        regs := { s.regs with icr := 0 }, rxLock := .held s.issuer, irqActive := true }.setOp
          (.irqHandler (.i3 rxStartCtx))) = .next t ∧
      exec .irqHandler s = .next { t with rxLock := .free, irqActive := false, ops := s.ops } ∧
      tailIndex .rx t = (tailIndex .rx s + gs.length) % ringSize .rx s ∧ t.out = s.out ++ drainOutputs s 0 gs

/-! The device engine (R250 to R258). -/

/-- R251: an enabled DEV_TX_FETCH latches the descriptor and the payload of the slot at the head and changes
nothing else; a descriptor without EOP, with reserved command bits or of length 0 is refused, and so is one whose
payload is no memory (R77); an event that is not enabled has no step (log 13). -/
def Obligations.DeviceFetchesTheHeadSlot : Prop :=
  ∀ s : State, CanIssue .dev s →
    (enSet s.regs.tctl = true ∧ s.txReady = true ∧ 0 < s.txPending ∧ s.txInflight = none →
      (txdCmd (headIndex .tx s) s &&& ~~~0x09 ≠ 0 ∨ (txdCmd (headIndex .tx s) s).getLsbD 0 = false ∨
        descLength .tx (headIndex .tx s) s = 0 ∨
        inMemory s.cfg (runAt (descPayload .tx (headIndex .tx s) s) (descLength .tx (headIndex .tx s) s).toNat) = false →
        Refuses (exec .devTxFetch s)) ∧
      (txdCmd (headIndex .tx s) s &&& ~~~0x09 = 0 → (txdCmd (headIndex .tx s) s).getLsbD 0 = true →
        descLength .tx (headIndex .tx s) s ≠ 0 →
        inMemory s.cfg (runAt (descPayload .tx (headIndex .tx s) s) (descLength .tx (headIndex .tx s) s).toNat) = true →
        ∃ t f, exec .devTxFetch s = .next t ∧ t = { s with txInflight := some f }.respond codeOk 0 ∧
          f.slot.toNat = headIndex .tx s ∧ f.addr = descPayload .tx (headIndex .tx s) s ∧
          f.length = descLength .tx (headIndex .tx s) s ∧ f.cmd = txdCmd (headIndex .tx s) s ∧
          f.bytes.length = f.length.toNat ∧
          ∀ k, k < f.length.toNat → f.bytes[k]? = some (s.byteAt (f.addr + BitVec.ofNat 64 k)))) ∧
    (enSet s.regs.tctl = false ∨ s.txReady = false ∨ s.txPending = 0 ∨ s.txInflight ≠ none →
      exec .devTxFetch s = .next s)

/-- R252, R258: DEV_TX_DONE puts the fetched bytes on the wire, sets Done in the slot's status byte if the
command asks for the report, advances the head, counts one slot less pending and raises no cause; nothing else
changes, and only that status byte of memory may. Not enabled (nothing in flight, or TCTL.EN clear), it has no
step (log 13, log 15). -/
def Obligations.DeviceCompletesTheSlotInFlight : Prop :=
  ∀ s : State, CanIssue .dev s →
    (∀ f, s.txInflight = some f → enSet s.regs.tctl = true →
      ∃ t, exec .devTxDone s = .next t ∧
        t = ({ s with
          regs := { s.regs with tdh := BitVec.ofNat 32 ((f.slot.toNat + 1) % ringSize .tx s) }
          mem := t.mem, txPending := s.txPending - 1, txInflight := none }.emit (.wireTx f.bytes)).respond codeOk 0 ∧
        descStatus .tx f.slot.toNat t =
          (if f.cmd.getLsbD 3 = true then descStatus .tx f.slot.toNat s ||| 0x01 else descStatus .tx f.slot.toNat s) ∧
        ∀ a, a ≠ descAddr .tx f.slot.toNat 12 s → t.byteAt a = s.byteAt a) ∧
    (s.txInflight = none ∨ enSet s.regs.tctl = false → exec .devTxDone s = .next s)

/-- R253, R254, R307: an arriving frame is refused when its length is 0 or above `RX_BUF_BYTES`, even while the half
is disabled (log 23); it does not exist while the half is disabled, where the model's event uses it up (log 13); it is
dropped without a trace when the window is empty, is refused when the head's descriptor names no memory (R77), and
otherwise fills the slot at the head: payload, length, Done, head, cause. Only the payload area's bytes and the
descriptor's bytes from 8 on may change. -/
def Obligations.FramesFillTheWindow : Prop :=
  ∀ (s : State) (len : Idx), CanIssue .dev s →
    (len.toNat = 0 ∨ s.cfg.rxBufBytes < len.toNat → Refuses (exec (.devRxFrame len) s)) ∧
    (0 < len.toNat → len.toNat ≤ s.cfg.rxBufBytes →
      (enSet s.regs.rctl = false ∨ s.rxReady = false →
        ∃ t, exec (.devRxFrame len) s = .next t ∧ t = { s with frames := s.frames.tail, draws := t.draws }) ∧
      (enSet s.regs.rctl = true → s.rxReady = true →
        ringDist (headIndex .rx s) (tailIndex .rx s) (ringSize .rx s) = 0 →
        ∃ t, exec (.devRxFrame len) s = .next t ∧
          t = { s with frames := s.frames.tail, draws := t.draws }.respond codeOk 0) ∧
      (enSet s.regs.rctl = true → s.rxReady = true →
        ringDist (headIndex .rx s) (tailIndex .rx s) (ringSize .rx s) ≠ 0 →
        inMemory s.cfg (runAt (descPayload .rx (headIndex .rx s) s) len.toNat) = false → Refuses (exec (.devRxFrame len) s)) ∧
      (enSet s.regs.rctl = true → s.rxReady = true →
        ringDist (headIndex .rx s) (tailIndex .rx s) (ringSize .rx s) ≠ 0 →
        inMemory s.cfg (runAt (descPayload .rx (headIndex .rx s) s) len.toNat) = true →
        ∃ t, exec (.devRxFrame len) s = .next t ∧
          t = { s with
            regs := { s.regs with
              rdh := BitVec.ofNat 32 ((headIndex .rx s + 1) % ringSize .rx s), icr := s.regs.icr ||| 0x80 }
            mem := t.mem, frames := s.frames.tail, draws := t.draws }.respond codeOk 0 ∧
          descLength .rx (headIndex .rx s) t = len ∧ ddSet (descStatus .rx (headIndex .rx s) t) = true ∧
          (∀ a, outside (descPayload .rx (headIndex .rx s) s) len.toNat a →
            outside (descAddr .rx (headIndex .rx s) 8 s) 8 a → t.byteAt a = s.byteAt a) ∧
          ∀ k b, k < len.toNat → (arriving s).data[k]? = some b →
            outside (descAddr .rx (headIndex .rx s) 8 s) 8 (descPayload .rx (headIndex .rx s) s + BitVec.ofNat 64 k) →
            t.byteAt (descPayload .rx (headIndex .rx s) s + BitVec.ofNat 64 k) = b))

/-! Reset (R330) and what holds in every state. -/

/-- R330: HW_RESET, issued by the environment in any state, gives every piece of state R51's value and abandons every
operation in progress. That the Failed state too is left so, against U20's words, is log 12; that any other agent's is
refused is log 9; that it appends no response word and keeps the outputs is log 20. -/
def Obligations.HardwareReset : Prop :=
  ∀ s : State, (s.issuer ≠ .env → Refuses (exec .hwReset s)) ∧
    (s.issuer = .env →
      ∃ t, exec .hwReset s = .next t ∧
        t.regs.ctrl = 0 ∧ t.regs.icr = 0 ∧ t.regs.ims = 0 ∧ t.regs.rctl = 0 ∧ t.regs.tctl = 0 ∧
        t.regs.tdlen = 0 ∧ t.regs.tdh = 0 ∧ t.regs.tdt = 0 ∧ t.regs.rdlen = 0 ∧ t.regs.rdh = 0 ∧ t.regs.rdt = 0 ∧
        t.regs.rdtr = 0 ∧ t.regs.radv = 0 ∧ t.txPending = 0 ∧ t.txInflight = none ∧ t.irqActive = false ∧
        irqLine t = false ∧ t.txLock = .free ∧ t.rxLock = .free ∧ t.txReady = false ∧ t.rxReady = false ∧
        t.failed = false ∧ t.ops = [] ∧ t.txBuf = [] ∧ t.rxBuf = [] ∧ t.bufs = [] ∧ t.out = s.out)

/-- R51: the state after reset has the values of the table, and it satisfies the invariants below; no operation,
slot array or buffer exists. (That base and filter registers are 0 in it is the model's choice, log 3; nothing is said
of them here.) -/
def Obligations.ResetStateIsLegal : Prop :=
  Legal State.reset ∧ CriticalSections State.reset ∧
    State.reset.regs.ctrl = 0 ∧ State.reset.regs.icr = 0 ∧ State.reset.regs.ims = 0 ∧ State.reset.regs.rctl = 0 ∧
    State.reset.regs.tctl = 0 ∧ State.reset.regs.rdtr = 0 ∧ State.reset.regs.radv = 0 ∧
    State.reset.regs.tdlen = 0 ∧ State.reset.regs.tdh = 0 ∧ State.reset.regs.tdt = 0 ∧
    State.reset.regs.rdlen = 0 ∧ State.reset.regs.rdh = 0 ∧ State.reset.regs.rdt = 0 ∧
    State.reset.txPending = 0 ∧ State.reset.txInflight = none ∧ State.reset.irqActive = false ∧
    State.reset.txLock = .free ∧ State.reset.rxLock = .free ∧ State.reset.txReady = false ∧
    State.reset.rxReady = false ∧ State.reset.failed = false ∧ irqLine State.reset = false ∧
    State.reset.ops = [] ∧ State.reset.txBuf = [] ∧ State.reset.rxBuf = [] ∧ State.reset.bufs = []

/-- Every step keeps memory, the live buffers and the operations in progress in their canonical forms:
addresses, handles and agents strictly rising, no zero byte, no pool buffer listed, no length above its buffer's area
and no area below RX_BUF_BYTES (R43, R48, R50, R186). -/
def Obligations.StepKeepsCanonicalForms : Prop :=
  ∀ s t : State, Legal s → step s = .next t →
    Memory.wf t.mem = true ∧ bufsLegal t.cfg t.bufs = true ∧ opsLegal t.ops = true

/-- Every step keeps the reserved bits of every register 0, the delays 0, and EN set only in a half whose ring
is constructed (R22 to R35, R173, R175). -/
def Obligations.StepKeepsRegisterForms : Prop :=
  ∀ s t : State, Legal s → step s = .next t → RegsLegal t.regs = true ∧ enablesLegal t = true

/-- R287 a and d: every step keeps `TDT = (TDH + tx_pending) mod N_TX`, `tx_pending <= N_TX`, what is in flight
the slot at the head, and the head and tail of each constructed ring inside it. -/
def Obligations.StepKeepsRingIndices : Prop :=
  ∀ s t : State, Legal s → step s = .next t → TxLegal t ∧ RxLegal t

/-- R88, R210, R343: every step keeps mutual exclusion: an agent inside a ring's critical section (TRANSMIT past
T1, a handler past I2 and so a drain) holds the ring's lock, so no two agents are inside the same one. -/
def Obligations.StepKeepsCriticalSections : Prop :=
  (∀ s t : State, CriticalSections s → step s = .next t → CriticalSections t) ∧
  ∀ (s : State) (a b : Agent) (o p : Op), CriticalSections s → s.opOf a = some o → s.opOf b = some p →
    (o.holdsTx = true ∧ p.holdsTx = true) ∨ (o.holdsRx = true ∧ p.holdsRx = true) → a = b

/-- R49, R321: only a construction that fails sets `failed`, and only HW_RESET clears it. -/
def Obligations.FailedChangesOnlyByConstructionAndReset : Prop :=
  (∀ (i : Instr) (s t : State), exec i s = .next t →
    t.failed = s.failed ∨ (i = .hwReset ∧ t.failed = false) ∨
      (s.failed = false ∧ t.failed = true ∧ ∃ n, i = .ringInitTx n ∨ i = .ringInitRx n)) ∧
  ∀ s t : State, proceed s = .next t → t.failed = s.failed

/-- R49, R335, R353: once a ring is constructed its base, its length and its ready flag change by nothing but
a reset, and its head only by the device engine. -/
def Obligations.GeometryIsImmutable : Prop :=
  (∀ (i : Instr) (s t : State), exec i s = .next t → i ≠ .hwReset → (∀ v, i ≠ .wr32Ctrl v) →
    (s.txReady = true → t.txReady = true ∧ t.regs.tdbal = s.regs.tdbal ∧ t.regs.tdbah = s.regs.tdbah ∧
      t.regs.tdlen = s.regs.tdlen ∧ (i ≠ .devTxDone → t.regs.tdh = s.regs.tdh)) ∧
    (s.rxReady = true → t.rxReady = true ∧ t.regs.rdbal = s.regs.rdbal ∧ t.regs.rdbah = s.regs.rdbah ∧
      t.regs.rdlen = s.regs.rdlen ∧ ((∀ len, i ≠ .devRxFrame len) → t.regs.rdh = s.regs.rdh))) ∧
  ∀ s t : State, proceed s = .next t →
    t.txReady = s.txReady ∧ t.rxReady = s.rxReady ∧ ringBase .tx t = ringBase .tx s ∧ ringBase .rx t = ringBase .rx s ∧
      t.regs.tdlen = s.regs.tdlen ∧ t.regs.rdlen = s.regs.rdlen ∧ t.regs.tdh = s.regs.tdh ∧ t.regs.rdh = s.regs.rdh

/-- R258, R307: no operation but an arriving frame makes a cause pending. -/
def Obligations.OnlyArrivalsRaiseACause : Prop :=
  (∀ (i : Instr) (s t : State) (k : Nat), exec i s = .next t → t.regs.icr.getLsbD k = true →
    s.regs.icr.getLsbD k = true ∨ ∃ len, i = .devRxFrame len) ∧
  ∀ (s t : State) (k : Nat), proceed s = .next t → t.regs.icr.getLsbD k = true → s.regs.icr.getLsbD k = true

/-- R53, R257: no step writes the parameters, and the outputs so far are never taken back (log 8, log 20). -/
def Obligations.ParametersAreFixedAndOutputsGrow : Prop :=
  ∀ s t : State, step s = .next t → t.cfg = s.cfg ∧ s.out <+: t.out

/-- R180: NEXT and DIST are the modular successor and the modular difference over the integers, with the laws
the rule lists. -/
def Obligations.RingArithmetic : Prop :=
  ∀ n i a b : Nat, 1 ≤ n → n ≤ 65528 → i < n → a < n → b < n →
    ringNext i n = (i + 1) % n ∧ (ringDist a b n : Int) = ((b : Int) - (a : Int)) % (n : Int) ∧
    ringNext i n < n ∧ ringDist a b n < n ∧ ringNext i n < 2 ^ 16 ∧
    ringNext (n - 1) n = 0 ∧ (i < n - 1 → ringNext i n = i + 1) ∧ (fun j => ringNext j n)^[n] i = i ∧
    (1 < n → ringDist a (ringNext a n) n = 1) ∧ ringDist a a n = 0 ∧ ringNext 0 1 = 0
end

