-- ==== Sys2Proof/Laws/Assoc.lean ====
section
/-! SUPPORT. Laws of the association lists: lookup after insert and erase, and that both keep the keys rising. -/

namespace Sys2Proof.Machine

variable {α : Type}

theorem Assoc.lookup_insert_self (k : Nat) (v : α) (l : List (Nat × α)) :
    Assoc.lookup k (Assoc.insert k v l) = some v := by
  induction l with
  | nil => simp [Assoc.insert, Assoc.lookup]
  | cons e l ih =>
    obtain ⟨j, u⟩ := e
    simp only [Assoc.insert]
    split
    · simp [Assoc.lookup]
    · split
      · simp [Assoc.lookup]
      · rename_i h
        simp [Assoc.lookup, h, ih]

theorem Assoc.lookup_insert_other {k j : Nat} (h : j ≠ k) (v : α) (l : List (Nat × α)) :
    Assoc.lookup j (Assoc.insert k v l) = Assoc.lookup j l := by
  induction l with
  | nil => simp [Assoc.insert, Assoc.lookup, Ne.symm h]
  | cons e l ih =>
    obtain ⟨i, u⟩ := e
    simp only [Assoc.insert]
    split
    · simp [Assoc.lookup, Ne.symm h]
    · split
      · rename_i hi
        subst hi
        simp [Assoc.lookup, Ne.symm h]
      · simp [Assoc.lookup, ih]

theorem Assoc.lookup_erase_self (k : Nat) (l : List (Nat × α)) : Assoc.lookup k (Assoc.erase k l) = none := by
  induction l with
  | nil => rfl
  | cons e l ih =>
    obtain ⟨j, u⟩ := e
    simp only [Assoc.erase]
    split
    · exact ih
    · rename_i h
      simp [Assoc.lookup, h, ih]

theorem Assoc.lookup_erase_other {k j : Nat} (h : j ≠ k) (l : List (Nat × α)) :
    Assoc.lookup j (Assoc.erase k l) = Assoc.lookup j l := by
  induction l with
  | nil => rfl
  | cons e l ih =>
    obtain ⟨i, u⟩ := e
    simp only [Assoc.erase]
    split
    · rename_i hi
      subst hi
      simp [Assoc.lookup, Ne.symm h, ih]
    · simp [Assoc.lookup, ih]

theorem Assoc.erase_insert_of_absent {k : Nat} {l : List (Nat × α)} (h : Assoc.lookup k l = none) (v : α) :
    Assoc.erase k (Assoc.insert k v l) = l := by
  have gone : ∀ l : List (Nat × α), Assoc.lookup k l = none → Assoc.erase k l = l := by
    intro l
    induction l with
    | nil => intro _; rfl
    | cons e l ih =>
      obtain ⟨j, u⟩ := e
      intro h
      simp only [Assoc.lookup] at h
      split at h
      · cases h
      · rename_i hj
        simp [Assoc.erase, hj, ih h]
  induction l with
  | nil => simp [Assoc.insert, Assoc.erase]
  | cons e l ih =>
    obtain ⟨j, u⟩ := e
    have hl := h
    simp only [Assoc.lookup] at h
    split at h
    · cases h
    · rename_i hj
      simp only [Assoc.insert]
      split
      · simp [Assoc.erase, hj, gone l h]
      · simp [Assoc.erase, hj, ih h]

theorem Assoc.insert_insert (k : Nat) (v w : α) (l : List (Nat × α)) :
    Assoc.insert k w (Assoc.insert k v l) = Assoc.insert k w l := by
  induction l with
  | nil => simp [Assoc.insert]
  | cons e l ih =>
    obtain ⟨j, u⟩ := e
    by_cases h1 : k < j
    · simp [Assoc.insert, h1]
    · by_cases h2 : j = k
      · subst h2; simp [Assoc.insert]
      · simp [Assoc.insert, h1, h2, ih]

theorem Assoc.risingFrom_mono {lo lo' : Nat} (h : lo' ≤ lo) {l : List (Nat × α)}
    (r : Assoc.risingFrom lo l = true) : Assoc.risingFrom lo' l = true := by
  cases l with
  | nil => rfl
  | cons e l =>
    obtain ⟨j, u⟩ := e
    simp only [Assoc.risingFrom, Bool.and_eq_true, decide_eq_true_eq] at r ⊢
    exact ⟨by omega, r.2⟩

theorem Assoc.risingFrom_insert {lo k : Nat} (hk : lo ≤ k) (v : α) {l : List (Nat × α)}
    (r : Assoc.risingFrom lo l = true) : Assoc.risingFrom lo (Assoc.insert k v l) = true := by
  induction l generalizing lo with
  | nil => simp [Assoc.insert, Assoc.risingFrom, hk]
  | cons e l ih =>
    obtain ⟨j, u⟩ := e
    simp only [Assoc.risingFrom, Bool.and_eq_true, decide_eq_true_eq] at r
    simp only [Assoc.insert]
    split
    · simp only [Assoc.risingFrom, Bool.and_eq_true, decide_eq_true_eq]
      exact ⟨hk, by omega, r.2⟩
    · split
      · rename_i h
        subst h
        simp only [Assoc.risingFrom, Bool.and_eq_true, decide_eq_true_eq]
        exact ⟨hk, r.2⟩
      · simp only [Assoc.risingFrom, Bool.and_eq_true, decide_eq_true_eq]
        exact ⟨r.1, ih (by omega) r.2⟩

theorem Assoc.risingFrom_erase {lo k : Nat} {l : List (Nat × α)} (r : Assoc.risingFrom lo l = true) :
    Assoc.risingFrom lo (Assoc.erase k l) = true := by
  induction l generalizing lo with
  | nil => rfl
  | cons e l ih =>
    obtain ⟨j, u⟩ := e
    simp only [Assoc.risingFrom, Bool.and_eq_true, decide_eq_true_eq] at r
    simp only [Assoc.erase]
    split
    · exact ih (Assoc.risingFrom_mono (by omega) r.2)
    · simp only [Assoc.risingFrom, Bool.and_eq_true, decide_eq_true_eq]
      exact ⟨r.1, ih r.2⟩

theorem Assoc.rising_insert (k : Nat) (v : α) {l : List (Nat × α)} (r : Assoc.rising l = true) :
    Assoc.rising (Assoc.insert k v l) = true :=
  Assoc.risingFrom_insert (Nat.zero_le k) v r

theorem Assoc.rising_erase (k : Nat) {l : List (Nat × α)} (r : Assoc.rising l = true) :
    Assoc.rising (Assoc.erase k l) = true :=
  Assoc.risingFrom_erase r

/-- A sublist of a rising list is rising; with values mapped as well. -/
theorem Assoc.risingFrom_filterMap {lo : Nat} (f : Nat × α → Option (Nat × α)) (hf : ∀ e e', f e = some e' → e'.1 = e.1)
    {l : List (Nat × α)} (r : Assoc.risingFrom lo l = true) : Assoc.risingFrom lo (l.filterMap f) = true := by
  induction l generalizing lo with
  | nil => rfl
  | cons e l ih =>
    obtain ⟨j, u⟩ := e
    simp only [Assoc.risingFrom, Bool.and_eq_true, decide_eq_true_eq] at r
    cases he : f (j, u) with
    | none => simpa [he] using ih (Assoc.risingFrom_mono (by omega) r.2)
    | some e' =>
      have hk := hf _ _ he
      obtain ⟨i, w⟩ := e'
      simp only at hk
      subst hk
      simp only [he, List.filterMap_cons, Assoc.risingFrom, Bool.and_eq_true, decide_eq_true_eq]
      exact ⟨r.1, ih r.2⟩

theorem Assoc.risingFrom_filter {lo : Nat} (p : Nat × α → Bool) {l : List (Nat × α)}
    (r : Assoc.risingFrom lo l = true) : Assoc.risingFrom lo (l.filter p) = true := by
  induction l generalizing lo with
  | nil => rfl
  | cons e l ih =>
    obtain ⟨j, u⟩ := e
    simp only [Assoc.risingFrom, Bool.and_eq_true, decide_eq_true_eq] at r
    cases hp : p (j, u) with
    | false => simpa [hp] using ih (Assoc.risingFrom_mono (by omega) r.2)
    | true =>
      simp only [hp, List.filter_cons_of_pos, Assoc.risingFrom, Bool.and_eq_true, decide_eq_true_eq]
      exact ⟨r.1, ih r.2⟩

/-- What holds of every entry and of the new one holds of every entry after an insert. -/
theorem Assoc.all_insert {p : Nat × α → Bool} {k : Nat} {v : α} {l : List (Nat × α)} (hv : p (k, v) = true)
    (h : l.all p = true) : (Assoc.insert k v l).all p = true := by
  induction l with
  | nil => simp [Assoc.insert, hv]
  | cons e l ih =>
    obtain ⟨j, u⟩ := e
    simp only [List.all_cons, Bool.and_eq_true] at h
    simp only [Assoc.insert]
    split
    · simp [hv, h.1, h.2]
    · split
      · simp [hv, h.2]
      · simp [h.1, ih h.2]

theorem Assoc.all_erase {p : Nat × α → Bool} {k : Nat} {l : List (Nat × α)} (h : l.all p = true) :
    (Assoc.erase k l).all p = true := by
  induction l with
  | nil => rfl
  | cons e l ih =>
    obtain ⟨j, u⟩ := e
    simp only [List.all_cons, Bool.and_eq_true] at h
    simp only [Assoc.erase]
    split
    · exact ih h.2
    · simp [h.1, ih h.2]

/-- A listed value satisfies what holds of every entry. -/
theorem Assoc.all_lookup {p : Nat × α → Bool} {k : Nat} {v : α} {l : List (Nat × α)} (h : l.all p = true)
    (hl : Assoc.lookup k l = some v) : p (k, v) = true := by
  induction l with
  | nil => cases hl
  | cons e l ih =>
    obtain ⟨j, u⟩ := e
    simp only [List.all_cons, Bool.and_eq_true] at h
    simp only [Assoc.lookup] at hl
    split at hl
    · rename_i hj
      subst hj
      cases hl
      exact h.1
    · exact ih h.2 hl

end Sys2Proof.Machine
end

