-- ==== Sys2Proof/Laws/Encoding.lean ====
section
/-! SUPPORT. The fields of a word put together by `mkWord` read back (R102); the reserved-bit
checks of register writes as fields that are 0 (R27, R28, R30). -/

namespace Sys2Proof

theorem toNat_concat {n m : Nat} (x : BitVec n) (y : BitVec m) : (x ++ y).toNat = x.toNat * 2 ^ m + y.toNat := by
  rw [BitVec.toNat_append, ← Nat.shiftLeft_add_eq_or_of_lt y.isLt, Nat.shiftLeft_eq]

/-- The value of a word put together from fields (R102). -/
theorem toNat_mkWord (op : Byte) (r : Ring) (i : Idx) (a : Word) :
    (mkWord op r i a).toNat =
      a.toNat * 2 ^ 32 + i.toNat * 2 ^ 16 + (match r with | .tx => 0 | .rx => 1) * 2 ^ 8 + op.toNat := by
  unfold mkWord
  rw [toNat_concat, toNat_concat, toNat_concat, toNat_concat]
  cases r <;> simp <;> omega

@[simp] theorem opOf_mkWord (op : Byte) (r : Ring) (i : Idx) (a : Word) : opOf (mkWord op r i a) = op := by
  apply BitVec.eq_of_toNat_eq
  have := op.isLt
  simp only [opOf, BitVec.extractLsb'_toNat, toNat_mkWord, Nat.shiftRight_eq_div_pow]
  omega

@[simp] theorem ringOf_mkWord (op : Byte) (r : Ring) (i : Idx) (a : Word) : ringOf (mkWord op r i a) = r := by
  have := op.isLt
  have h : (mkWord op r i a).getLsbD 8 = (match r with | .tx => false | .rx => true) := by
    rw [BitVec.getLsbD, Nat.testBit_eq_decide_div_mod_eq, toNat_mkWord]
    cases r <;> simp <;> omega
  unfold ringOf
  rw [h]
  cases r <;> rfl

@[simp] theorem reservedOf_mkWord (op : Byte) (r : Ring) (i : Idx) (a : Word) : reservedOf (mkWord op r i a) = 0#7 := by
  apply BitVec.eq_of_toNat_eq
  have := op.isLt
  simp only [reservedOf, BitVec.extractLsb'_toNat, toNat_mkWord, Nat.shiftRight_eq_div_pow, BitVec.toNat_ofNat]
  cases r <;> simp <;> omega

@[simp] theorem idxOf_mkWord (op : Byte) (r : Ring) (i : Idx) (a : Word) : idxOf (mkWord op r i a) = i := by
  apply BitVec.eq_of_toNat_eq
  have := op.isLt
  have := i.isLt
  simp only [idxOf, BitVec.extractLsb'_toNat, toNat_mkWord, Nat.shiftRight_eq_div_pow]
  cases r <;> simp <;> omega

@[simp] theorem argOf_mkWord (op : Byte) (r : Ring) (i : Idx) (a : Word) : argOf (mkWord op r i a) = a := by
  apply BitVec.eq_of_toNat_eq
  have := op.isLt
  have := i.isLt
  have := a.isLt
  simp only [argOf, BitVec.extractLsb'_toNat, toNat_mkWord, Nat.shiftRight_eq_div_pow]
  cases r <;> simp <;> omega

theorem baseLowOk_iff (v : Word) : baseLowOk v = true ↔ v.extractLsb' 0 4 = 0 := by
  unfold baseLowOk
  rw [beq_iff_eq]
  constructor
  · intro h
    apply BitVec.eq_of_getLsbD_eq
    intro i hi
    have := congrArg (fun x => x.getLsbD i) h
    have h4 : i < 4 := hi
    interval_cases i <;> simpa using this
  · intro h
    apply BitVec.eq_of_getLsbD_eq
    intro i hi
    by_cases h4 : i < 4
    · have := congrArg (fun x => x.getLsbD i) h
      interval_cases i <;> simpa using this
    · interval_cases i <;> simp

theorem lengthOk_iff (v : Word) : lengthOk v = true ↔ v.extractLsb' 20 12 = 0 ∧ v.extractLsb' 0 7 = 0 := by
  unfold lengthOk
  rw [beq_iff_eq]
  constructor
  · intro h
    constructor
    · apply BitVec.eq_of_getLsbD_eq
      intro i hi
      have := congrArg (fun x => x.getLsbD (20 + i)) h
      have h4 : i < 12 := hi
      interval_cases i <;> simpa using this
    · apply BitVec.eq_of_getLsbD_eq
      intro i hi
      have := congrArg (fun x => x.getLsbD i) h
      have h4 : i < 7 := hi
      interval_cases i <;> simpa using this
  · rintro ⟨h, h'⟩
    apply BitVec.eq_of_getLsbD_eq
    intro i hi
    by_cases h4 : i < 7
    · have := congrArg (fun x => x.getLsbD i) h'
      interval_cases i <;> simpa using this
    · by_cases h5 : i < 20
      · interval_cases i <;> simp at h4 ⊢
      · have := congrArg (fun x => x.getLsbD (i-20)) h
        interval_cases i <;> simp at h5 <;> simpa using this

theorem indexOk_iff (v : Word) : indexOk v = true ↔ v.extractLsb' 16 16 = 0 := by
  unfold indexOk
  rw [beq_iff_eq]
  constructor
  · intro h
    apply BitVec.eq_of_getLsbD_eq
    intro i hi
    have := congrArg (fun x => x.getLsbD (16 + i)) h
    have h4 : i < 16 := hi
    interval_cases i <;> simpa using this
  · intro h
    apply BitVec.eq_of_getLsbD_eq
    intro i hi
    by_cases h4 : i < 16
    · interval_cases i <;> simp
    · have := congrArg (fun x => x.getLsbD (i-16)) h
      interval_cases i <;> simp at h4 <;> simpa using this

end Sys2Proof
end

