-- ==== Sys2Proof/Laws/Memory.lean ====
section
/-! SUPPORT. Laws of shared memory: read after write, byte strings, and that every memory operation keeps
the canonical form `Memory.wf`. -/

namespace Sys2Proof.Machine

open Sys2Proof

theorem Memory.read_write_self (m : List Host.Cell) (a : Nat) (b : Byte) : Memory.read (Memory.write m a b) a = b := by
  unfold Memory.read Memory.write
  split
  · rename_i h; simp [Assoc.lookup_erase_self, h]
  · simp [Assoc.lookup_insert_self]

theorem Memory.read_write_other (m : List Host.Cell) {a c : Nat} (h : c ≠ a) (b : Byte) :
    Memory.read (Memory.write m a b) c = Memory.read m c := by
  unfold Memory.read Memory.write
  split
  · rw [Assoc.lookup_erase_other h]
  · rw [Assoc.lookup_insert_other h]

theorem Memory.read_write (m : List Host.Cell) (a c : Nat) (b : Byte) :
    Memory.read (Memory.write m a b) c = if c = a then b else Memory.read m c := by
  split
  · rename_i h; subst h; exact Memory.read_write_self m c b
  · rename_i h; exact Memory.read_write_other m h b

theorem Memory.wf_nil : Memory.wf [] = true := rfl

theorem Memory.wf_write {m : List Host.Cell} {a : Nat} (b : Byte) (ha : a < Config.addrTop)
    (h : Memory.wf m = true) : Memory.wf (Memory.write m a b) = true := by
  simp only [Memory.wf, Bool.and_eq_true] at h ⊢
  unfold Memory.write
  split
  · exact ⟨Assoc.rising_erase a h.1, Assoc.all_erase h.2⟩
  · rename_i hb
    exact ⟨Assoc.rising_insert a b h.1, Assoc.all_insert (by simpa [ha] using hb) h.2⟩

theorem Memory.wf_writeBytes {m : List Host.Cell} (a : Addr) (bs : List Byte) (h : Memory.wf m = true) :
    Memory.wf (Memory.writeBytes m a bs) = true := by
  induction bs generalizing m a with
  | nil => exact h
  | cons b bs ih => exact ih _ (Memory.wf_write b a.isLt h)

theorem Memory.wf_ofCells (l : List (Nat × Byte)) : Memory.wf (Memory.ofCells l) = true := by
  induction l with
  | nil => rfl
  | cons e l ih =>
    obtain ⟨a, b⟩ := e
    exact Memory.wf_write b (Nat.mod_lt _ (by decide)) ih

/-- A byte outside the string stored reads as before. -/
theorem Memory.read_writeBytes_other (m : List Host.Cell) (a c : Addr) (bs : List Byte)
    (h : ∀ k < bs.length, c ≠ a + BitVec.ofNat 64 k) :
    Memory.read (Memory.writeBytes m a bs) c.toNat = Memory.read m c.toNat := by
  induction bs generalizing m a with
  | nil => rfl
  | cons b bs ih =>
    have h0 : c ≠ a := by simpa using h 0 (by simp)
    rw [Memory.writeBytes, ih _ _ (fun k hk => ?_)]
    · exact Memory.read_write_other m (fun e => h0 (BitVec.eq_of_toNat_eq e)) b
    · have := h (k + 1) (by simp; omega)
      intro e
      apply this
      rw [e, BitVec.add_assoc]
      congr 1
      apply BitVec.eq_of_toNat_eq
      simp [BitVec.toNat_add, BitVec.toNat_ofNat, Nat.add_comm]

/-- Byte `k` of a string shorter than the address space reads back. -/
theorem Memory.read_writeBytes_at (m : List Host.Cell) (a : Addr) (bs : List Byte) (k : Nat) (hk : k < bs.length)
    (hl : bs.length ≤ 2 ^ 64) :
    Memory.read (Memory.writeBytes m a bs) (a + BitVec.ofNat 64 k).toNat = bs[k] := by
  induction bs generalizing m a k with
  | nil => cases hk
  | cons b bs ih =>
    have hl' : bs.length + 1 ≤ 2 ^ 64 := by simpa using hl
    cases k with
    | zero =>
      simp only [BitVec.ofNat_eq_ofNat, BitVec.add_zero, List.getElem_cons_zero, Memory.writeBytes]
      rw [Memory.read_writeBytes_other]
      · exact Memory.read_write_self m a.toNat b
      · intro k hk e
        have h3 := congrArg BitVec.toNat e
        have ha := a.isLt
        simp only [BitVec.toNat_add, BitVec.toNat_ofNat] at h3
        omega
    | succ k =>
      have hk' : k < bs.length := by simpa using hk
      have e : a + BitVec.ofNat 64 (k + 1) = (a + 1) + BitVec.ofNat 64 k := by
        rw [BitVec.add_assoc]
        congr 1
        apply BitVec.eq_of_toNat_eq
        simp [BitVec.toNat_add, BitVec.toNat_ofNat, Nat.add_comm]
      rw [Memory.writeBytes, e, ih _ _ k hk' (by omega)]
      rfl

theorem Memory.length_readBytes (m : List Host.Cell) (a : Addr) (n : Nat) : (Memory.readBytes m a n).length = n := by
  induction n generalizing a with
  | zero => rfl
  | succ n ih => simp [Memory.readBytes, ih]

theorem Memory.getElem_readBytes (m : List Host.Cell) (a : Addr) (n k : Nat) (hk : k < (Memory.readBytes m a n).length) :
    (Memory.readBytes m a n)[k] = Memory.read m (a + BitVec.ofNat 64 k).toNat := by
  induction n generalizing a k with
  | zero => simp [Memory.readBytes] at hk
  | succ n ih =>
    cases k with
    | zero => simp [Memory.readBytes]
    | succ k =>
      have e : a + BitVec.ofNat 64 (k + 1) = (a + 1) + BitVec.ofNat 64 k := by
        rw [BitVec.add_assoc]
        congr 1
        apply BitVec.eq_of_toNat_eq
        simp [BitVec.toNat_add, BitVec.toNat_ofNat, Nat.add_comm]
      simp only [Memory.readBytes, List.getElem_cons_succ]
      rw [ih, e]

/-- Two memories that agree on a run of addresses read the same bytes there. -/
theorem Memory.readBytes_congr {m m' : List Host.Cell} {a : Addr} {n : Nat}
    (h : ∀ k < n, Memory.read m (a + BitVec.ofNat 64 k).toNat = Memory.read m' (a + BitVec.ofNat 64 k).toNat) :
    Memory.readBytes m a n = Memory.readBytes m' a n := by
  apply List.ext_getElem
  · rw [Memory.length_readBytes, Memory.length_readBytes]
  · intro k h1 h2
    rw [Memory.getElem_readBytes, Memory.getElem_readBytes]
    exact h k (by simpa [Memory.length_readBytes] using h1)

/-- A string just stored reads back whole. -/
theorem Memory.readBytes_writeBytes (m : List Host.Cell) (a : Addr) (bs : List Byte) (hl : bs.length ≤ 2 ^ 64) :
    Memory.readBytes (Memory.writeBytes m a bs) a bs.length = bs := by
  apply List.ext_getElem
  · rw [Memory.length_readBytes]
  · intro k h1 h2
    rw [Memory.getElem_readBytes, Memory.read_writeBytes_at _ _ _ _ h2 hl]

theorem length_leBytes (n v : Nat) : (leBytes n v).length = n := by
  induction n generalizing v with
  | zero => rfl
  | succ n ih => simp [leBytes, ih]

/-- The bytes of a number, read back little-endian, are its value modulo their capacity. -/
theorem leNat_leBytes (n v : Nat) : leNat (leBytes n v) = v % 256 ^ n := by
  induction n generalizing v with
  | zero => simp [leBytes, leNat, Nat.mod_one]
  | succ n ih =>
    have h : 256 ^ (n + 1) = 256 * 256 ^ n := by rw [Nat.pow_succ, Nat.mul_comm]
    simp only [leBytes, leNat, ih, BitVec.toNat_ofNat, h, Nat.mod_mul]

end Sys2Proof.Machine
end

