-- ==== Sys2Proof/Laws/State.lean ====
section
/-! SUPPORT. For every named update of State, each field after it: unchanged, or what the update makes of
it. True by unfolding; later proofs cite these by `simp` and unfold no record update. -/

namespace Sys2Proof.Machine

open Sys2Proof

@[simp] theorem emit_regs (o : Output) (s : State) : (s.emit o).regs = s.regs := rfl
@[simp] theorem emit_mem (o : Output) (s : State) : (s.emit o).mem = s.mem := rfl
@[simp] theorem emit_txBuf (o : Output) (s : State) : (s.emit o).txBuf = s.txBuf := rfl
@[simp] theorem emit_rxBuf (o : Output) (s : State) : (s.emit o).rxBuf = s.rxBuf := rfl
@[simp] theorem emit_bufs (o : Output) (s : State) : (s.emit o).bufs = s.bufs := rfl
@[simp] theorem emit_txLock (o : Output) (s : State) : (s.emit o).txLock = s.txLock := rfl
@[simp] theorem emit_rxLock (o : Output) (s : State) : (s.emit o).rxLock = s.rxLock := rfl
@[simp] theorem emit_txPending (o : Output) (s : State) : (s.emit o).txPending = s.txPending := rfl
@[simp] theorem emit_txInflight (o : Output) (s : State) : (s.emit o).txInflight = s.txInflight := rfl
@[simp] theorem emit_irqActive (o : Output) (s : State) : (s.emit o).irqActive = s.irqActive := rfl
@[simp] theorem emit_ops (o : Output) (s : State) : (s.emit o).ops = s.ops := rfl
@[simp] theorem emit_txReady (o : Output) (s : State) : (s.emit o).txReady = s.txReady := rfl
@[simp] theorem emit_rxReady (o : Output) (s : State) : (s.emit o).rxReady = s.rxReady := rfl
@[simp] theorem emit_failed (o : Output) (s : State) : (s.emit o).failed = s.failed := rfl
@[simp] theorem emit_cfg (o : Output) (s : State) : (s.emit o).cfg = s.cfg := rfl
@[simp] theorem emit_issuer (o : Output) (s : State) : (s.emit o).issuer = s.issuer := rfl
@[simp] theorem emit_inputs (o : Output) (s : State) : (s.emit o).inputs = s.inputs := rfl
@[simp] theorem emit_frames (o : Output) (s : State) : (s.emit o).frames = s.frames := rfl
@[simp] theorem emit_allocs (o : Output) (s : State) : (s.emit o).allocs = s.allocs := rfl
@[simp] theorem emit_draws (o : Output) (s : State) : (s.emit o).draws = s.draws := rfl
@[simp] theorem emit_out (o : Output) (s : State) : (s.emit o).out = s.out ++ [o] := rfl

@[simp] theorem respond_regs (c : Byte) (v : Word) (s : State) : (s.respond c v).regs = s.regs := rfl
@[simp] theorem respond_mem (c : Byte) (v : Word) (s : State) : (s.respond c v).mem = s.mem := rfl
@[simp] theorem respond_txBuf (c : Byte) (v : Word) (s : State) : (s.respond c v).txBuf = s.txBuf := rfl
@[simp] theorem respond_rxBuf (c : Byte) (v : Word) (s : State) : (s.respond c v).rxBuf = s.rxBuf := rfl
@[simp] theorem respond_bufs (c : Byte) (v : Word) (s : State) : (s.respond c v).bufs = s.bufs := rfl
@[simp] theorem respond_txLock (c : Byte) (v : Word) (s : State) : (s.respond c v).txLock = s.txLock := rfl
@[simp] theorem respond_rxLock (c : Byte) (v : Word) (s : State) : (s.respond c v).rxLock = s.rxLock := rfl
@[simp] theorem respond_txPending (c : Byte) (v : Word) (s : State) : (s.respond c v).txPending = s.txPending := rfl
@[simp] theorem respond_txInflight (c : Byte) (v : Word) (s : State) : (s.respond c v).txInflight = s.txInflight := rfl
@[simp] theorem respond_irqActive (c : Byte) (v : Word) (s : State) : (s.respond c v).irqActive = s.irqActive := rfl
@[simp] theorem respond_ops (c : Byte) (v : Word) (s : State) : (s.respond c v).ops = s.ops := rfl
@[simp] theorem respond_txReady (c : Byte) (v : Word) (s : State) : (s.respond c v).txReady = s.txReady := rfl
@[simp] theorem respond_rxReady (c : Byte) (v : Word) (s : State) : (s.respond c v).rxReady = s.rxReady := rfl
@[simp] theorem respond_failed (c : Byte) (v : Word) (s : State) : (s.respond c v).failed = s.failed := rfl
@[simp] theorem respond_cfg (c : Byte) (v : Word) (s : State) : (s.respond c v).cfg = s.cfg := rfl
@[simp] theorem respond_issuer (c : Byte) (v : Word) (s : State) : (s.respond c v).issuer = s.issuer := rfl
@[simp] theorem respond_inputs (c : Byte) (v : Word) (s : State) : (s.respond c v).inputs = s.inputs := rfl
@[simp] theorem respond_frames (c : Byte) (v : Word) (s : State) : (s.respond c v).frames = s.frames := rfl
@[simp] theorem respond_allocs (c : Byte) (v : Word) (s : State) : (s.respond c v).allocs = s.allocs := rfl
@[simp] theorem respond_draws (c : Byte) (v : Word) (s : State) : (s.respond c v).draws = s.draws := rfl
@[simp] theorem respond_out (c : Byte) (v : Word) (s : State) : (s.respond c v).out = s.out ++ [.result s.issuer (respWord c v)] := rfl

@[simp] theorem storeBytes_regs (a : Addr) (l : List Byte) (s : State) : (s.storeBytes a l).regs = s.regs := rfl
@[simp] theorem storeBytes_mem (a : Addr) (l : List Byte) (s : State) : (s.storeBytes a l).mem = Memory.writeBytes s.mem a l := rfl
@[simp] theorem storeBytes_txBuf (a : Addr) (l : List Byte) (s : State) : (s.storeBytes a l).txBuf = s.txBuf := rfl
@[simp] theorem storeBytes_rxBuf (a : Addr) (l : List Byte) (s : State) : (s.storeBytes a l).rxBuf = s.rxBuf := rfl
@[simp] theorem storeBytes_bufs (a : Addr) (l : List Byte) (s : State) : (s.storeBytes a l).bufs = s.bufs := rfl
@[simp] theorem storeBytes_txLock (a : Addr) (l : List Byte) (s : State) : (s.storeBytes a l).txLock = s.txLock := rfl
@[simp] theorem storeBytes_rxLock (a : Addr) (l : List Byte) (s : State) : (s.storeBytes a l).rxLock = s.rxLock := rfl
@[simp] theorem storeBytes_txPending (a : Addr) (l : List Byte) (s : State) : (s.storeBytes a l).txPending = s.txPending := rfl
@[simp] theorem storeBytes_txInflight (a : Addr) (l : List Byte) (s : State) : (s.storeBytes a l).txInflight = s.txInflight := rfl
@[simp] theorem storeBytes_irqActive (a : Addr) (l : List Byte) (s : State) : (s.storeBytes a l).irqActive = s.irqActive := rfl
@[simp] theorem storeBytes_ops (a : Addr) (l : List Byte) (s : State) : (s.storeBytes a l).ops = s.ops := rfl
@[simp] theorem storeBytes_txReady (a : Addr) (l : List Byte) (s : State) : (s.storeBytes a l).txReady = s.txReady := rfl
@[simp] theorem storeBytes_rxReady (a : Addr) (l : List Byte) (s : State) : (s.storeBytes a l).rxReady = s.rxReady := rfl
@[simp] theorem storeBytes_failed (a : Addr) (l : List Byte) (s : State) : (s.storeBytes a l).failed = s.failed := rfl
@[simp] theorem storeBytes_cfg (a : Addr) (l : List Byte) (s : State) : (s.storeBytes a l).cfg = s.cfg := rfl
@[simp] theorem storeBytes_issuer (a : Addr) (l : List Byte) (s : State) : (s.storeBytes a l).issuer = s.issuer := rfl
@[simp] theorem storeBytes_inputs (a : Addr) (l : List Byte) (s : State) : (s.storeBytes a l).inputs = s.inputs := rfl
@[simp] theorem storeBytes_frames (a : Addr) (l : List Byte) (s : State) : (s.storeBytes a l).frames = s.frames := rfl
@[simp] theorem storeBytes_allocs (a : Addr) (l : List Byte) (s : State) : (s.storeBytes a l).allocs = s.allocs := rfl
@[simp] theorem storeBytes_draws (a : Addr) (l : List Byte) (s : State) : (s.storeBytes a l).draws = s.draws := rfl
@[simp] theorem storeBytes_out (a : Addr) (l : List Byte) (s : State) : (s.storeBytes a l).out = s.out := rfl

@[simp] theorem store_regs (a : Addr) (n v : Nat) (s : State) : (s.store a n v).regs = s.regs := rfl
@[simp] theorem store_mem (a : Addr) (n v : Nat) (s : State) : (s.store a n v).mem = Memory.writeBytes s.mem a (leBytes n v) := rfl
@[simp] theorem store_txBuf (a : Addr) (n v : Nat) (s : State) : (s.store a n v).txBuf = s.txBuf := rfl
@[simp] theorem store_rxBuf (a : Addr) (n v : Nat) (s : State) : (s.store a n v).rxBuf = s.rxBuf := rfl
@[simp] theorem store_bufs (a : Addr) (n v : Nat) (s : State) : (s.store a n v).bufs = s.bufs := rfl
@[simp] theorem store_txLock (a : Addr) (n v : Nat) (s : State) : (s.store a n v).txLock = s.txLock := rfl
@[simp] theorem store_rxLock (a : Addr) (n v : Nat) (s : State) : (s.store a n v).rxLock = s.rxLock := rfl
@[simp] theorem store_txPending (a : Addr) (n v : Nat) (s : State) : (s.store a n v).txPending = s.txPending := rfl
@[simp] theorem store_txInflight (a : Addr) (n v : Nat) (s : State) : (s.store a n v).txInflight = s.txInflight := rfl
@[simp] theorem store_irqActive (a : Addr) (n v : Nat) (s : State) : (s.store a n v).irqActive = s.irqActive := rfl
@[simp] theorem store_ops (a : Addr) (n v : Nat) (s : State) : (s.store a n v).ops = s.ops := rfl
@[simp] theorem store_txReady (a : Addr) (n v : Nat) (s : State) : (s.store a n v).txReady = s.txReady := rfl
@[simp] theorem store_rxReady (a : Addr) (n v : Nat) (s : State) : (s.store a n v).rxReady = s.rxReady := rfl
@[simp] theorem store_failed (a : Addr) (n v : Nat) (s : State) : (s.store a n v).failed = s.failed := rfl
@[simp] theorem store_cfg (a : Addr) (n v : Nat) (s : State) : (s.store a n v).cfg = s.cfg := rfl
@[simp] theorem store_issuer (a : Addr) (n v : Nat) (s : State) : (s.store a n v).issuer = s.issuer := rfl
@[simp] theorem store_inputs (a : Addr) (n v : Nat) (s : State) : (s.store a n v).inputs = s.inputs := rfl
@[simp] theorem store_frames (a : Addr) (n v : Nat) (s : State) : (s.store a n v).frames = s.frames := rfl
@[simp] theorem store_allocs (a : Addr) (n v : Nat) (s : State) : (s.store a n v).allocs = s.allocs := rfl
@[simp] theorem store_draws (a : Addr) (n v : Nat) (s : State) : (s.store a n v).draws = s.draws := rfl
@[simp] theorem store_out (a : Addr) (n v : Nat) (s : State) : (s.store a n v).out = s.out := rfl

@[simp] theorem setDescStatus_regs (r : Ring) (i : Nat) (v : Byte) (s : State) : (setDescStatus r i v s).regs = s.regs := rfl
@[simp] theorem setDescStatus_mem (r : Ring) (i : Nat) (v : Byte) (s : State) : (setDescStatus r i v s).mem = Memory.writeBytes s.mem (descAddr r i offStatus s) [v] := rfl
@[simp] theorem setDescStatus_txBuf (r : Ring) (i : Nat) (v : Byte) (s : State) : (setDescStatus r i v s).txBuf = s.txBuf := rfl
@[simp] theorem setDescStatus_rxBuf (r : Ring) (i : Nat) (v : Byte) (s : State) : (setDescStatus r i v s).rxBuf = s.rxBuf := rfl
@[simp] theorem setDescStatus_bufs (r : Ring) (i : Nat) (v : Byte) (s : State) : (setDescStatus r i v s).bufs = s.bufs := rfl
@[simp] theorem setDescStatus_txLock (r : Ring) (i : Nat) (v : Byte) (s : State) : (setDescStatus r i v s).txLock = s.txLock := rfl
@[simp] theorem setDescStatus_rxLock (r : Ring) (i : Nat) (v : Byte) (s : State) : (setDescStatus r i v s).rxLock = s.rxLock := rfl
@[simp] theorem setDescStatus_txPending (r : Ring) (i : Nat) (v : Byte) (s : State) : (setDescStatus r i v s).txPending = s.txPending := rfl
@[simp] theorem setDescStatus_txInflight (r : Ring) (i : Nat) (v : Byte) (s : State) : (setDescStatus r i v s).txInflight = s.txInflight := rfl
@[simp] theorem setDescStatus_irqActive (r : Ring) (i : Nat) (v : Byte) (s : State) : (setDescStatus r i v s).irqActive = s.irqActive := rfl
@[simp] theorem setDescStatus_ops (r : Ring) (i : Nat) (v : Byte) (s : State) : (setDescStatus r i v s).ops = s.ops := rfl
@[simp] theorem setDescStatus_txReady (r : Ring) (i : Nat) (v : Byte) (s : State) : (setDescStatus r i v s).txReady = s.txReady := rfl
@[simp] theorem setDescStatus_rxReady (r : Ring) (i : Nat) (v : Byte) (s : State) : (setDescStatus r i v s).rxReady = s.rxReady := rfl
@[simp] theorem setDescStatus_failed (r : Ring) (i : Nat) (v : Byte) (s : State) : (setDescStatus r i v s).failed = s.failed := rfl
@[simp] theorem setDescStatus_cfg (r : Ring) (i : Nat) (v : Byte) (s : State) : (setDescStatus r i v s).cfg = s.cfg := rfl
@[simp] theorem setDescStatus_issuer (r : Ring) (i : Nat) (v : Byte) (s : State) : (setDescStatus r i v s).issuer = s.issuer := rfl
@[simp] theorem setDescStatus_inputs (r : Ring) (i : Nat) (v : Byte) (s : State) : (setDescStatus r i v s).inputs = s.inputs := rfl
@[simp] theorem setDescStatus_frames (r : Ring) (i : Nat) (v : Byte) (s : State) : (setDescStatus r i v s).frames = s.frames := rfl
@[simp] theorem setDescStatus_allocs (r : Ring) (i : Nat) (v : Byte) (s : State) : (setDescStatus r i v s).allocs = s.allocs := rfl
@[simp] theorem setDescStatus_draws (r : Ring) (i : Nat) (v : Byte) (s : State) : (setDescStatus r i v s).draws = s.draws := rfl
@[simp] theorem setDescStatus_out (r : Ring) (i : Nat) (v : Byte) (s : State) : (setDescStatus r i v s).out = s.out := rfl

@[simp] theorem setTxdCmd_regs (i : Nat) (v : Byte) (s : State) : (setTxdCmd i v s).regs = s.regs := rfl
@[simp] theorem setTxdCmd_mem (i : Nat) (v : Byte) (s : State) : (setTxdCmd i v s).mem = Memory.writeBytes s.mem (descAddr .tx i offCmd s) [v] := rfl
@[simp] theorem setTxdCmd_txBuf (i : Nat) (v : Byte) (s : State) : (setTxdCmd i v s).txBuf = s.txBuf := rfl
@[simp] theorem setTxdCmd_rxBuf (i : Nat) (v : Byte) (s : State) : (setTxdCmd i v s).rxBuf = s.rxBuf := rfl
@[simp] theorem setTxdCmd_bufs (i : Nat) (v : Byte) (s : State) : (setTxdCmd i v s).bufs = s.bufs := rfl
@[simp] theorem setTxdCmd_txLock (i : Nat) (v : Byte) (s : State) : (setTxdCmd i v s).txLock = s.txLock := rfl
@[simp] theorem setTxdCmd_rxLock (i : Nat) (v : Byte) (s : State) : (setTxdCmd i v s).rxLock = s.rxLock := rfl
@[simp] theorem setTxdCmd_txPending (i : Nat) (v : Byte) (s : State) : (setTxdCmd i v s).txPending = s.txPending := rfl
@[simp] theorem setTxdCmd_txInflight (i : Nat) (v : Byte) (s : State) : (setTxdCmd i v s).txInflight = s.txInflight := rfl
@[simp] theorem setTxdCmd_irqActive (i : Nat) (v : Byte) (s : State) : (setTxdCmd i v s).irqActive = s.irqActive := rfl
@[simp] theorem setTxdCmd_ops (i : Nat) (v : Byte) (s : State) : (setTxdCmd i v s).ops = s.ops := rfl
@[simp] theorem setTxdCmd_txReady (i : Nat) (v : Byte) (s : State) : (setTxdCmd i v s).txReady = s.txReady := rfl
@[simp] theorem setTxdCmd_rxReady (i : Nat) (v : Byte) (s : State) : (setTxdCmd i v s).rxReady = s.rxReady := rfl
@[simp] theorem setTxdCmd_failed (i : Nat) (v : Byte) (s : State) : (setTxdCmd i v s).failed = s.failed := rfl
@[simp] theorem setTxdCmd_cfg (i : Nat) (v : Byte) (s : State) : (setTxdCmd i v s).cfg = s.cfg := rfl
@[simp] theorem setTxdCmd_issuer (i : Nat) (v : Byte) (s : State) : (setTxdCmd i v s).issuer = s.issuer := rfl
@[simp] theorem setTxdCmd_inputs (i : Nat) (v : Byte) (s : State) : (setTxdCmd i v s).inputs = s.inputs := rfl
@[simp] theorem setTxdCmd_frames (i : Nat) (v : Byte) (s : State) : (setTxdCmd i v s).frames = s.frames := rfl
@[simp] theorem setTxdCmd_allocs (i : Nat) (v : Byte) (s : State) : (setTxdCmd i v s).allocs = s.allocs := rfl
@[simp] theorem setTxdCmd_draws (i : Nat) (v : Byte) (s : State) : (setTxdCmd i v s).draws = s.draws := rfl
@[simp] theorem setTxdCmd_out (i : Nat) (v : Byte) (s : State) : (setTxdCmd i v s).out = s.out := rfl

@[simp] theorem setDescPayload_regs (r : Ring) (i : Nat) (a : Addr) (s : State) : (setDescPayload r i a s).regs = s.regs := rfl
@[simp] theorem setDescPayload_mem (r : Ring) (i : Nat) (a : Addr) (s : State) : (setDescPayload r i a s).mem = Memory.writeBytes s.mem (descAddr r i offAddr s) (leBytes 8 a.toNat) := rfl
@[simp] theorem setDescPayload_txBuf (r : Ring) (i : Nat) (a : Addr) (s : State) : (setDescPayload r i a s).txBuf = s.txBuf := rfl
@[simp] theorem setDescPayload_rxBuf (r : Ring) (i : Nat) (a : Addr) (s : State) : (setDescPayload r i a s).rxBuf = s.rxBuf := rfl
@[simp] theorem setDescPayload_bufs (r : Ring) (i : Nat) (a : Addr) (s : State) : (setDescPayload r i a s).bufs = s.bufs := rfl
@[simp] theorem setDescPayload_txLock (r : Ring) (i : Nat) (a : Addr) (s : State) : (setDescPayload r i a s).txLock = s.txLock := rfl
@[simp] theorem setDescPayload_rxLock (r : Ring) (i : Nat) (a : Addr) (s : State) : (setDescPayload r i a s).rxLock = s.rxLock := rfl
@[simp] theorem setDescPayload_txPending (r : Ring) (i : Nat) (a : Addr) (s : State) : (setDescPayload r i a s).txPending = s.txPending := rfl
@[simp] theorem setDescPayload_txInflight (r : Ring) (i : Nat) (a : Addr) (s : State) : (setDescPayload r i a s).txInflight = s.txInflight := rfl
@[simp] theorem setDescPayload_irqActive (r : Ring) (i : Nat) (a : Addr) (s : State) : (setDescPayload r i a s).irqActive = s.irqActive := rfl
@[simp] theorem setDescPayload_ops (r : Ring) (i : Nat) (a : Addr) (s : State) : (setDescPayload r i a s).ops = s.ops := rfl
@[simp] theorem setDescPayload_txReady (r : Ring) (i : Nat) (a : Addr) (s : State) : (setDescPayload r i a s).txReady = s.txReady := rfl
@[simp] theorem setDescPayload_rxReady (r : Ring) (i : Nat) (a : Addr) (s : State) : (setDescPayload r i a s).rxReady = s.rxReady := rfl
@[simp] theorem setDescPayload_failed (r : Ring) (i : Nat) (a : Addr) (s : State) : (setDescPayload r i a s).failed = s.failed := rfl
@[simp] theorem setDescPayload_cfg (r : Ring) (i : Nat) (a : Addr) (s : State) : (setDescPayload r i a s).cfg = s.cfg := rfl
@[simp] theorem setDescPayload_issuer (r : Ring) (i : Nat) (a : Addr) (s : State) : (setDescPayload r i a s).issuer = s.issuer := rfl
@[simp] theorem setDescPayload_inputs (r : Ring) (i : Nat) (a : Addr) (s : State) : (setDescPayload r i a s).inputs = s.inputs := rfl
@[simp] theorem setDescPayload_frames (r : Ring) (i : Nat) (a : Addr) (s : State) : (setDescPayload r i a s).frames = s.frames := rfl
@[simp] theorem setDescPayload_allocs (r : Ring) (i : Nat) (a : Addr) (s : State) : (setDescPayload r i a s).allocs = s.allocs := rfl
@[simp] theorem setDescPayload_draws (r : Ring) (i : Nat) (a : Addr) (s : State) : (setDescPayload r i a s).draws = s.draws := rfl
@[simp] theorem setDescPayload_out (r : Ring) (i : Nat) (a : Addr) (s : State) : (setDescPayload r i a s).out = s.out := rfl

@[simp] theorem setDescLength_regs (r : Ring) (i n : Nat) (s : State) : (setDescLength r i n s).regs = s.regs := rfl
@[simp] theorem setDescLength_mem (r : Ring) (i n : Nat) (s : State) : (setDescLength r i n s).mem = Memory.writeBytes s.mem (descAddr r i offLength s) (leBytes 2 n) := rfl
@[simp] theorem setDescLength_txBuf (r : Ring) (i n : Nat) (s : State) : (setDescLength r i n s).txBuf = s.txBuf := rfl
@[simp] theorem setDescLength_rxBuf (r : Ring) (i n : Nat) (s : State) : (setDescLength r i n s).rxBuf = s.rxBuf := rfl
@[simp] theorem setDescLength_bufs (r : Ring) (i n : Nat) (s : State) : (setDescLength r i n s).bufs = s.bufs := rfl
@[simp] theorem setDescLength_txLock (r : Ring) (i n : Nat) (s : State) : (setDescLength r i n s).txLock = s.txLock := rfl
@[simp] theorem setDescLength_rxLock (r : Ring) (i n : Nat) (s : State) : (setDescLength r i n s).rxLock = s.rxLock := rfl
@[simp] theorem setDescLength_txPending (r : Ring) (i n : Nat) (s : State) : (setDescLength r i n s).txPending = s.txPending := rfl
@[simp] theorem setDescLength_txInflight (r : Ring) (i n : Nat) (s : State) : (setDescLength r i n s).txInflight = s.txInflight := rfl
@[simp] theorem setDescLength_irqActive (r : Ring) (i n : Nat) (s : State) : (setDescLength r i n s).irqActive = s.irqActive := rfl
@[simp] theorem setDescLength_ops (r : Ring) (i n : Nat) (s : State) : (setDescLength r i n s).ops = s.ops := rfl
@[simp] theorem setDescLength_txReady (r : Ring) (i n : Nat) (s : State) : (setDescLength r i n s).txReady = s.txReady := rfl
@[simp] theorem setDescLength_rxReady (r : Ring) (i n : Nat) (s : State) : (setDescLength r i n s).rxReady = s.rxReady := rfl
@[simp] theorem setDescLength_failed (r : Ring) (i n : Nat) (s : State) : (setDescLength r i n s).failed = s.failed := rfl
@[simp] theorem setDescLength_cfg (r : Ring) (i n : Nat) (s : State) : (setDescLength r i n s).cfg = s.cfg := rfl
@[simp] theorem setDescLength_issuer (r : Ring) (i n : Nat) (s : State) : (setDescLength r i n s).issuer = s.issuer := rfl
@[simp] theorem setDescLength_inputs (r : Ring) (i n : Nat) (s : State) : (setDescLength r i n s).inputs = s.inputs := rfl
@[simp] theorem setDescLength_frames (r : Ring) (i n : Nat) (s : State) : (setDescLength r i n s).frames = s.frames := rfl
@[simp] theorem setDescLength_allocs (r : Ring) (i n : Nat) (s : State) : (setDescLength r i n s).allocs = s.allocs := rfl
@[simp] theorem setDescLength_draws (r : Ring) (i n : Nat) (s : State) : (setDescLength r i n s).draws = s.draws := rfl
@[simp] theorem setDescLength_out (r : Ring) (i n : Nat) (s : State) : (setDescLength r i n s).out = s.out := rfl

@[simp] theorem setLock_regs (r : Ring) (l : Lock) (s : State) : (s.setLock r l).regs = s.regs := by cases r <;> rfl
@[simp] theorem setLock_mem (r : Ring) (l : Lock) (s : State) : (s.setLock r l).mem = s.mem := by cases r <;> rfl
@[simp] theorem setLock_txBuf (r : Ring) (l : Lock) (s : State) : (s.setLock r l).txBuf = s.txBuf := by cases r <;> rfl
@[simp] theorem setLock_rxBuf (r : Ring) (l : Lock) (s : State) : (s.setLock r l).rxBuf = s.rxBuf := by cases r <;> rfl
@[simp] theorem setLock_bufs (r : Ring) (l : Lock) (s : State) : (s.setLock r l).bufs = s.bufs := by cases r <;> rfl
@[simp] theorem setLock_txPending (r : Ring) (l : Lock) (s : State) : (s.setLock r l).txPending = s.txPending := by cases r <;> rfl
@[simp] theorem setLock_txInflight (r : Ring) (l : Lock) (s : State) : (s.setLock r l).txInflight = s.txInflight := by cases r <;> rfl
@[simp] theorem setLock_irqActive (r : Ring) (l : Lock) (s : State) : (s.setLock r l).irqActive = s.irqActive := by cases r <;> rfl
@[simp] theorem setLock_ops (r : Ring) (l : Lock) (s : State) : (s.setLock r l).ops = s.ops := by cases r <;> rfl
@[simp] theorem setLock_txReady (r : Ring) (l : Lock) (s : State) : (s.setLock r l).txReady = s.txReady := by cases r <;> rfl
@[simp] theorem setLock_rxReady (r : Ring) (l : Lock) (s : State) : (s.setLock r l).rxReady = s.rxReady := by cases r <;> rfl
@[simp] theorem setLock_failed (r : Ring) (l : Lock) (s : State) : (s.setLock r l).failed = s.failed := by cases r <;> rfl
@[simp] theorem setLock_cfg (r : Ring) (l : Lock) (s : State) : (s.setLock r l).cfg = s.cfg := by cases r <;> rfl
@[simp] theorem setLock_issuer (r : Ring) (l : Lock) (s : State) : (s.setLock r l).issuer = s.issuer := by cases r <;> rfl
@[simp] theorem setLock_inputs (r : Ring) (l : Lock) (s : State) : (s.setLock r l).inputs = s.inputs := by cases r <;> rfl
@[simp] theorem setLock_frames (r : Ring) (l : Lock) (s : State) : (s.setLock r l).frames = s.frames := by cases r <;> rfl
@[simp] theorem setLock_allocs (r : Ring) (l : Lock) (s : State) : (s.setLock r l).allocs = s.allocs := by cases r <;> rfl
@[simp] theorem setLock_draws (r : Ring) (l : Lock) (s : State) : (s.setLock r l).draws = s.draws := by cases r <;> rfl
@[simp] theorem setLock_out (r : Ring) (l : Lock) (s : State) : (s.setLock r l).out = s.out := by cases r <;> rfl

@[simp] theorem setOp_regs (o : Op) (s : State) : (s.setOp o).regs = s.regs := rfl
@[simp] theorem setOp_mem (o : Op) (s : State) : (s.setOp o).mem = s.mem := rfl
@[simp] theorem setOp_txBuf (o : Op) (s : State) : (s.setOp o).txBuf = s.txBuf := rfl
@[simp] theorem setOp_rxBuf (o : Op) (s : State) : (s.setOp o).rxBuf = s.rxBuf := rfl
@[simp] theorem setOp_bufs (o : Op) (s : State) : (s.setOp o).bufs = s.bufs := rfl
@[simp] theorem setOp_txLock (o : Op) (s : State) : (s.setOp o).txLock = s.txLock := rfl
@[simp] theorem setOp_rxLock (o : Op) (s : State) : (s.setOp o).rxLock = s.rxLock := rfl
@[simp] theorem setOp_txPending (o : Op) (s : State) : (s.setOp o).txPending = s.txPending := rfl
@[simp] theorem setOp_txInflight (o : Op) (s : State) : (s.setOp o).txInflight = s.txInflight := rfl
@[simp] theorem setOp_irqActive (o : Op) (s : State) : (s.setOp o).irqActive = s.irqActive := rfl
@[simp] theorem setOp_ops (o : Op) (s : State) : (s.setOp o).ops = Assoc.insert (agentKey s.issuer) o s.ops := rfl
@[simp] theorem setOp_txReady (o : Op) (s : State) : (s.setOp o).txReady = s.txReady := rfl
@[simp] theorem setOp_rxReady (o : Op) (s : State) : (s.setOp o).rxReady = s.rxReady := rfl
@[simp] theorem setOp_failed (o : Op) (s : State) : (s.setOp o).failed = s.failed := rfl
@[simp] theorem setOp_cfg (o : Op) (s : State) : (s.setOp o).cfg = s.cfg := rfl
@[simp] theorem setOp_issuer (o : Op) (s : State) : (s.setOp o).issuer = s.issuer := rfl
@[simp] theorem setOp_inputs (o : Op) (s : State) : (s.setOp o).inputs = s.inputs := rfl
@[simp] theorem setOp_frames (o : Op) (s : State) : (s.setOp o).frames = s.frames := rfl
@[simp] theorem setOp_allocs (o : Op) (s : State) : (s.setOp o).allocs = s.allocs := rfl
@[simp] theorem setOp_draws (o : Op) (s : State) : (s.setOp o).draws = s.draws := rfl
@[simp] theorem setOp_out (o : Op) (s : State) : (s.setOp o).out = s.out := rfl

@[simp] theorem clearOp_regs (s : State) : (s.clearOp).regs = s.regs := rfl
@[simp] theorem clearOp_mem (s : State) : (s.clearOp).mem = s.mem := rfl
@[simp] theorem clearOp_txBuf (s : State) : (s.clearOp).txBuf = s.txBuf := rfl
@[simp] theorem clearOp_rxBuf (s : State) : (s.clearOp).rxBuf = s.rxBuf := rfl
@[simp] theorem clearOp_bufs (s : State) : (s.clearOp).bufs = s.bufs := rfl
@[simp] theorem clearOp_txLock (s : State) : (s.clearOp).txLock = s.txLock := rfl
@[simp] theorem clearOp_rxLock (s : State) : (s.clearOp).rxLock = s.rxLock := rfl
@[simp] theorem clearOp_txPending (s : State) : (s.clearOp).txPending = s.txPending := rfl
@[simp] theorem clearOp_txInflight (s : State) : (s.clearOp).txInflight = s.txInflight := rfl
@[simp] theorem clearOp_irqActive (s : State) : (s.clearOp).irqActive = s.irqActive := rfl
@[simp] theorem clearOp_ops (s : State) : (s.clearOp).ops = Assoc.erase (agentKey s.issuer) s.ops := rfl
@[simp] theorem clearOp_txReady (s : State) : (s.clearOp).txReady = s.txReady := rfl
@[simp] theorem clearOp_rxReady (s : State) : (s.clearOp).rxReady = s.rxReady := rfl
@[simp] theorem clearOp_failed (s : State) : (s.clearOp).failed = s.failed := rfl
@[simp] theorem clearOp_cfg (s : State) : (s.clearOp).cfg = s.cfg := rfl
@[simp] theorem clearOp_issuer (s : State) : (s.clearOp).issuer = s.issuer := rfl
@[simp] theorem clearOp_inputs (s : State) : (s.clearOp).inputs = s.inputs := rfl
@[simp] theorem clearOp_frames (s : State) : (s.clearOp).frames = s.frames := rfl
@[simp] theorem clearOp_allocs (s : State) : (s.clearOp).allocs = s.allocs := rfl
@[simp] theorem clearOp_draws (s : State) : (s.clearOp).draws = s.draws := rfl
@[simp] theorem clearOp_out (s : State) : (s.clearOp).out = s.out := rfl

@[simp] theorem setSlot_regs (r : Ring) (i : Nat) (x : Option Handle) (s : State) : (s.setSlot r i x).regs = s.regs := by cases r <;> rfl
@[simp] theorem setSlot_mem (r : Ring) (i : Nat) (x : Option Handle) (s : State) : (s.setSlot r i x).mem = s.mem := by cases r <;> rfl
@[simp] theorem setSlot_bufs (r : Ring) (i : Nat) (x : Option Handle) (s : State) : (s.setSlot r i x).bufs = s.bufs := by cases r <;> rfl
@[simp] theorem setSlot_txLock (r : Ring) (i : Nat) (x : Option Handle) (s : State) : (s.setSlot r i x).txLock = s.txLock := by cases r <;> rfl
@[simp] theorem setSlot_rxLock (r : Ring) (i : Nat) (x : Option Handle) (s : State) : (s.setSlot r i x).rxLock = s.rxLock := by cases r <;> rfl
@[simp] theorem setSlot_txPending (r : Ring) (i : Nat) (x : Option Handle) (s : State) : (s.setSlot r i x).txPending = s.txPending := by cases r <;> rfl
@[simp] theorem setSlot_txInflight (r : Ring) (i : Nat) (x : Option Handle) (s : State) : (s.setSlot r i x).txInflight = s.txInflight := by cases r <;> rfl
@[simp] theorem setSlot_irqActive (r : Ring) (i : Nat) (x : Option Handle) (s : State) : (s.setSlot r i x).irqActive = s.irqActive := by cases r <;> rfl
@[simp] theorem setSlot_ops (r : Ring) (i : Nat) (x : Option Handle) (s : State) : (s.setSlot r i x).ops = s.ops := by cases r <;> rfl
@[simp] theorem setSlot_txReady (r : Ring) (i : Nat) (x : Option Handle) (s : State) : (s.setSlot r i x).txReady = s.txReady := by cases r <;> rfl
@[simp] theorem setSlot_rxReady (r : Ring) (i : Nat) (x : Option Handle) (s : State) : (s.setSlot r i x).rxReady = s.rxReady := by cases r <;> rfl
@[simp] theorem setSlot_failed (r : Ring) (i : Nat) (x : Option Handle) (s : State) : (s.setSlot r i x).failed = s.failed := by cases r <;> rfl
@[simp] theorem setSlot_cfg (r : Ring) (i : Nat) (x : Option Handle) (s : State) : (s.setSlot r i x).cfg = s.cfg := by cases r <;> rfl
@[simp] theorem setSlot_issuer (r : Ring) (i : Nat) (x : Option Handle) (s : State) : (s.setSlot r i x).issuer = s.issuer := by cases r <;> rfl
@[simp] theorem setSlot_inputs (r : Ring) (i : Nat) (x : Option Handle) (s : State) : (s.setSlot r i x).inputs = s.inputs := by cases r <;> rfl
@[simp] theorem setSlot_frames (r : Ring) (i : Nat) (x : Option Handle) (s : State) : (s.setSlot r i x).frames = s.frames := by cases r <;> rfl
@[simp] theorem setSlot_allocs (r : Ring) (i : Nat) (x : Option Handle) (s : State) : (s.setSlot r i x).allocs = s.allocs := by cases r <;> rfl
@[simp] theorem setSlot_draws (r : Ring) (i : Nat) (x : Option Handle) (s : State) : (s.setSlot r i x).draws = s.draws := by cases r <;> rfl
@[simp] theorem setSlot_out (r : Ring) (i : Nat) (x : Option Handle) (s : State) : (s.setSlot r i x).out = s.out := by cases r <;> rfl

@[simp] theorem setBuf_regs (h : Handle) (b : Buffer) (s : State) : (s.setBuf h b).regs = s.regs := rfl
@[simp] theorem setBuf_mem (h : Handle) (b : Buffer) (s : State) : (s.setBuf h b).mem = s.mem := rfl
@[simp] theorem setBuf_txBuf (h : Handle) (b : Buffer) (s : State) : (s.setBuf h b).txBuf = s.txBuf := rfl
@[simp] theorem setBuf_rxBuf (h : Handle) (b : Buffer) (s : State) : (s.setBuf h b).rxBuf = s.rxBuf := rfl
@[simp] theorem setBuf_bufs (h : Handle) (b : Buffer) (s : State) : (s.setBuf h b).bufs = Assoc.insert h.toNat b s.bufs := rfl
@[simp] theorem setBuf_txLock (h : Handle) (b : Buffer) (s : State) : (s.setBuf h b).txLock = s.txLock := rfl
@[simp] theorem setBuf_rxLock (h : Handle) (b : Buffer) (s : State) : (s.setBuf h b).rxLock = s.rxLock := rfl
@[simp] theorem setBuf_txPending (h : Handle) (b : Buffer) (s : State) : (s.setBuf h b).txPending = s.txPending := rfl
@[simp] theorem setBuf_txInflight (h : Handle) (b : Buffer) (s : State) : (s.setBuf h b).txInflight = s.txInflight := rfl
@[simp] theorem setBuf_irqActive (h : Handle) (b : Buffer) (s : State) : (s.setBuf h b).irqActive = s.irqActive := rfl
@[simp] theorem setBuf_ops (h : Handle) (b : Buffer) (s : State) : (s.setBuf h b).ops = s.ops := rfl
@[simp] theorem setBuf_txReady (h : Handle) (b : Buffer) (s : State) : (s.setBuf h b).txReady = s.txReady := rfl
@[simp] theorem setBuf_rxReady (h : Handle) (b : Buffer) (s : State) : (s.setBuf h b).rxReady = s.rxReady := rfl
@[simp] theorem setBuf_failed (h : Handle) (b : Buffer) (s : State) : (s.setBuf h b).failed = s.failed := rfl
@[simp] theorem setBuf_cfg (h : Handle) (b : Buffer) (s : State) : (s.setBuf h b).cfg = s.cfg := rfl
@[simp] theorem setBuf_issuer (h : Handle) (b : Buffer) (s : State) : (s.setBuf h b).issuer = s.issuer := rfl
@[simp] theorem setBuf_inputs (h : Handle) (b : Buffer) (s : State) : (s.setBuf h b).inputs = s.inputs := rfl
@[simp] theorem setBuf_frames (h : Handle) (b : Buffer) (s : State) : (s.setBuf h b).frames = s.frames := rfl
@[simp] theorem setBuf_allocs (h : Handle) (b : Buffer) (s : State) : (s.setBuf h b).allocs = s.allocs := rfl
@[simp] theorem setBuf_draws (h : Handle) (b : Buffer) (s : State) : (s.setBuf h b).draws = s.draws := rfl
@[simp] theorem setBuf_out (h : Handle) (b : Buffer) (s : State) : (s.setBuf h b).out = s.out := rfl

@[simp] theorem dropBuf_regs (h : Handle) (s : State) : (s.dropBuf h).regs = s.regs := rfl
@[simp] theorem dropBuf_mem (h : Handle) (s : State) : (s.dropBuf h).mem = s.mem := rfl
@[simp] theorem dropBuf_txBuf (h : Handle) (s : State) : (s.dropBuf h).txBuf = s.txBuf := rfl
@[simp] theorem dropBuf_rxBuf (h : Handle) (s : State) : (s.dropBuf h).rxBuf = s.rxBuf := rfl
@[simp] theorem dropBuf_bufs (h : Handle) (s : State) : (s.dropBuf h).bufs = Assoc.erase h.toNat s.bufs := rfl
@[simp] theorem dropBuf_txLock (h : Handle) (s : State) : (s.dropBuf h).txLock = s.txLock := rfl
@[simp] theorem dropBuf_rxLock (h : Handle) (s : State) : (s.dropBuf h).rxLock = s.rxLock := rfl
@[simp] theorem dropBuf_txPending (h : Handle) (s : State) : (s.dropBuf h).txPending = s.txPending := rfl
@[simp] theorem dropBuf_txInflight (h : Handle) (s : State) : (s.dropBuf h).txInflight = s.txInflight := rfl
@[simp] theorem dropBuf_irqActive (h : Handle) (s : State) : (s.dropBuf h).irqActive = s.irqActive := rfl
@[simp] theorem dropBuf_ops (h : Handle) (s : State) : (s.dropBuf h).ops = s.ops := rfl
@[simp] theorem dropBuf_txReady (h : Handle) (s : State) : (s.dropBuf h).txReady = s.txReady := rfl
@[simp] theorem dropBuf_rxReady (h : Handle) (s : State) : (s.dropBuf h).rxReady = s.rxReady := rfl
@[simp] theorem dropBuf_failed (h : Handle) (s : State) : (s.dropBuf h).failed = s.failed := rfl
@[simp] theorem dropBuf_cfg (h : Handle) (s : State) : (s.dropBuf h).cfg = s.cfg := rfl
@[simp] theorem dropBuf_issuer (h : Handle) (s : State) : (s.dropBuf h).issuer = s.issuer := rfl
@[simp] theorem dropBuf_inputs (h : Handle) (s : State) : (s.dropBuf h).inputs = s.inputs := rfl
@[simp] theorem dropBuf_frames (h : Handle) (s : State) : (s.dropBuf h).frames = s.frames := rfl
@[simp] theorem dropBuf_allocs (h : Handle) (s : State) : (s.dropBuf h).allocs = s.allocs := rfl
@[simp] theorem dropBuf_draws (h : Handle) (s : State) : (s.dropBuf h).draws = s.draws := rfl
@[simp] theorem dropBuf_out (h : Handle) (s : State) : (s.dropBuf h).out = s.out := rfl

@[simp] theorem installHolder_regs (h : Handle) (r : Ring) (i : Nat) (s : State) : (s.installHolder h r i).regs = s.regs := by unfold State.installHolder; split <;> rfl
@[simp] theorem installHolder_mem (h : Handle) (r : Ring) (i : Nat) (s : State) : (s.installHolder h r i).mem = s.mem := by unfold State.installHolder; split <;> rfl
@[simp] theorem installHolder_txBuf (h : Handle) (r : Ring) (i : Nat) (s : State) : (s.installHolder h r i).txBuf = s.txBuf := by unfold State.installHolder; split <;> rfl
@[simp] theorem installHolder_rxBuf (h : Handle) (r : Ring) (i : Nat) (s : State) : (s.installHolder h r i).rxBuf = s.rxBuf := by unfold State.installHolder; split <;> rfl
@[simp] theorem installHolder_txLock (h : Handle) (r : Ring) (i : Nat) (s : State) : (s.installHolder h r i).txLock = s.txLock := by unfold State.installHolder; split <;> rfl
@[simp] theorem installHolder_rxLock (h : Handle) (r : Ring) (i : Nat) (s : State) : (s.installHolder h r i).rxLock = s.rxLock := by unfold State.installHolder; split <;> rfl
@[simp] theorem installHolder_txPending (h : Handle) (r : Ring) (i : Nat) (s : State) : (s.installHolder h r i).txPending = s.txPending := by unfold State.installHolder; split <;> rfl
@[simp] theorem installHolder_txInflight (h : Handle) (r : Ring) (i : Nat) (s : State) : (s.installHolder h r i).txInflight = s.txInflight := by unfold State.installHolder; split <;> rfl
@[simp] theorem installHolder_irqActive (h : Handle) (r : Ring) (i : Nat) (s : State) : (s.installHolder h r i).irqActive = s.irqActive := by unfold State.installHolder; split <;> rfl
@[simp] theorem installHolder_ops (h : Handle) (r : Ring) (i : Nat) (s : State) : (s.installHolder h r i).ops = s.ops := by unfold State.installHolder; split <;> rfl
@[simp] theorem installHolder_txReady (h : Handle) (r : Ring) (i : Nat) (s : State) : (s.installHolder h r i).txReady = s.txReady := by unfold State.installHolder; split <;> rfl
@[simp] theorem installHolder_rxReady (h : Handle) (r : Ring) (i : Nat) (s : State) : (s.installHolder h r i).rxReady = s.rxReady := by unfold State.installHolder; split <;> rfl
@[simp] theorem installHolder_failed (h : Handle) (r : Ring) (i : Nat) (s : State) : (s.installHolder h r i).failed = s.failed := by unfold State.installHolder; split <;> rfl
@[simp] theorem installHolder_cfg (h : Handle) (r : Ring) (i : Nat) (s : State) : (s.installHolder h r i).cfg = s.cfg := by unfold State.installHolder; split <;> rfl
@[simp] theorem installHolder_issuer (h : Handle) (r : Ring) (i : Nat) (s : State) : (s.installHolder h r i).issuer = s.issuer := by unfold State.installHolder; split <;> rfl
@[simp] theorem installHolder_inputs (h : Handle) (r : Ring) (i : Nat) (s : State) : (s.installHolder h r i).inputs = s.inputs := by unfold State.installHolder; split <;> rfl
@[simp] theorem installHolder_frames (h : Handle) (r : Ring) (i : Nat) (s : State) : (s.installHolder h r i).frames = s.frames := by unfold State.installHolder; split <;> rfl
@[simp] theorem installHolder_allocs (h : Handle) (r : Ring) (i : Nat) (s : State) : (s.installHolder h r i).allocs = s.allocs := by unfold State.installHolder; split <;> rfl
@[simp] theorem installHolder_draws (h : Handle) (r : Ring) (i : Nat) (s : State) : (s.installHolder h r i).draws = s.draws := by unfold State.installHolder; split <;> rfl
@[simp] theorem installHolder_out (h : Handle) (r : Ring) (i : Nat) (s : State) : (s.installHolder h r i).out = s.out := by unfold State.installHolder; split <;> rfl

@[simp] theorem nextProposal_regs (s : State) : (s.nextProposal).regs = s.regs := by unfold State.nextProposal; split <;> simp_all
@[simp] theorem nextProposal_mem (s : State) : (s.nextProposal).mem = s.mem := by unfold State.nextProposal; split <;> simp_all
@[simp] theorem nextProposal_txBuf (s : State) : (s.nextProposal).txBuf = s.txBuf := by unfold State.nextProposal; split <;> simp_all
@[simp] theorem nextProposal_rxBuf (s : State) : (s.nextProposal).rxBuf = s.rxBuf := by unfold State.nextProposal; split <;> simp_all
@[simp] theorem nextProposal_bufs (s : State) : (s.nextProposal).bufs = s.bufs := by unfold State.nextProposal; split <;> simp_all
@[simp] theorem nextProposal_txLock (s : State) : (s.nextProposal).txLock = s.txLock := by unfold State.nextProposal; split <;> simp_all
@[simp] theorem nextProposal_rxLock (s : State) : (s.nextProposal).rxLock = s.rxLock := by unfold State.nextProposal; split <;> simp_all
@[simp] theorem nextProposal_txPending (s : State) : (s.nextProposal).txPending = s.txPending := by unfold State.nextProposal; split <;> simp_all
@[simp] theorem nextProposal_txInflight (s : State) : (s.nextProposal).txInflight = s.txInflight := by unfold State.nextProposal; split <;> simp_all
@[simp] theorem nextProposal_irqActive (s : State) : (s.nextProposal).irqActive = s.irqActive := by unfold State.nextProposal; split <;> simp_all
@[simp] theorem nextProposal_ops (s : State) : (s.nextProposal).ops = s.ops := by unfold State.nextProposal; split <;> simp_all
@[simp] theorem nextProposal_txReady (s : State) : (s.nextProposal).txReady = s.txReady := by unfold State.nextProposal; split <;> simp_all
@[simp] theorem nextProposal_rxReady (s : State) : (s.nextProposal).rxReady = s.rxReady := by unfold State.nextProposal; split <;> simp_all
@[simp] theorem nextProposal_failed (s : State) : (s.nextProposal).failed = s.failed := by unfold State.nextProposal; split <;> simp_all
@[simp] theorem nextProposal_cfg (s : State) : (s.nextProposal).cfg = s.cfg := by unfold State.nextProposal; split <;> simp_all
@[simp] theorem nextProposal_issuer (s : State) : (s.nextProposal).issuer = s.issuer := by unfold State.nextProposal; split <;> simp_all
@[simp] theorem nextProposal_inputs (s : State) : (s.nextProposal).inputs = s.inputs := by unfold State.nextProposal; split <;> simp_all
@[simp] theorem nextProposal_frames (s : State) : (s.nextProposal).frames = s.frames := by unfold State.nextProposal; split <;> simp_all
@[simp] theorem nextProposal_allocs (s : State) : (s.nextProposal).allocs = s.allocs.tail := by unfold State.nextProposal; split <;> simp_all
@[simp] theorem nextProposal_out (s : State) : (s.nextProposal).out = s.out := by unfold State.nextProposal; split <;> simp_all

@[simp] theorem allocate_regs (x : List Region) (n : Idx) (s : State) : (allocate x n s).regs = s.regs := by unfold allocate; split <;> simp
@[simp] theorem allocate_mem (x : List Region) (n : Idx) (s : State) : (allocate x n s).mem = s.mem := by unfold allocate; split <;> simp
@[simp] theorem allocate_txBuf (x : List Region) (n : Idx) (s : State) : (allocate x n s).txBuf = s.txBuf := by unfold allocate; split <;> simp
@[simp] theorem allocate_rxBuf (x : List Region) (n : Idx) (s : State) : (allocate x n s).rxBuf = s.rxBuf := by unfold allocate; split <;> simp
@[simp] theorem allocate_txLock (x : List Region) (n : Idx) (s : State) : (allocate x n s).txLock = s.txLock := by unfold allocate; split <;> simp
@[simp] theorem allocate_rxLock (x : List Region) (n : Idx) (s : State) : (allocate x n s).rxLock = s.rxLock := by unfold allocate; split <;> simp
@[simp] theorem allocate_txPending (x : List Region) (n : Idx) (s : State) : (allocate x n s).txPending = s.txPending := by unfold allocate; split <;> simp
@[simp] theorem allocate_txInflight (x : List Region) (n : Idx) (s : State) : (allocate x n s).txInflight = s.txInflight := by unfold allocate; split <;> simp
@[simp] theorem allocate_irqActive (x : List Region) (n : Idx) (s : State) : (allocate x n s).irqActive = s.irqActive := by unfold allocate; split <;> simp
@[simp] theorem allocate_ops (x : List Region) (n : Idx) (s : State) : (allocate x n s).ops = s.ops := by unfold allocate; split <;> simp
@[simp] theorem allocate_txReady (x : List Region) (n : Idx) (s : State) : (allocate x n s).txReady = s.txReady := by unfold allocate; split <;> simp
@[simp] theorem allocate_rxReady (x : List Region) (n : Idx) (s : State) : (allocate x n s).rxReady = s.rxReady := by unfold allocate; split <;> simp
@[simp] theorem allocate_failed (x : List Region) (n : Idx) (s : State) : (allocate x n s).failed = s.failed := by unfold allocate; split <;> simp
@[simp] theorem allocate_cfg (x : List Region) (n : Idx) (s : State) : (allocate x n s).cfg = s.cfg := by unfold allocate; split <;> simp
@[simp] theorem allocate_issuer (x : List Region) (n : Idx) (s : State) : (allocate x n s).issuer = s.issuer := by unfold allocate; split <;> simp
@[simp] theorem allocate_inputs (x : List Region) (n : Idx) (s : State) : (allocate x n s).inputs = s.inputs := by unfold allocate; split <;> simp
@[simp] theorem allocate_frames (x : List Region) (n : Idx) (s : State) : (allocate x n s).frames = s.frames := by unfold allocate; split <;> simp
@[simp] theorem allocate_allocs (x : List Region) (n : Idx) (s : State) : (allocate x n s).allocs = s.allocs.tail := by unfold allocate; split <;> simp
@[simp] theorem allocate_draws (x : List Region) (n : Idx) (s : State) : (allocate x n s).draws = s.nextProposal.draws := by unfold allocate; split <;> simp
@[simp] theorem allocate_out (x : List Region) (n : Idx) (s : State) : (allocate x n s).out = s.out ++ [.alloc n (allocHandle x s)] := by unfold allocate; split <;> simp_all [allocHandle]

@[simp] theorem frameGone_regs (s : State) : (s.frameGone).regs = s.regs := rfl
@[simp] theorem frameGone_mem (s : State) : (s.frameGone).mem = s.mem := rfl
@[simp] theorem frameGone_txBuf (s : State) : (s.frameGone).txBuf = s.txBuf := rfl
@[simp] theorem frameGone_rxBuf (s : State) : (s.frameGone).rxBuf = s.rxBuf := rfl
@[simp] theorem frameGone_bufs (s : State) : (s.frameGone).bufs = s.bufs := rfl
@[simp] theorem frameGone_txLock (s : State) : (s.frameGone).txLock = s.txLock := rfl
@[simp] theorem frameGone_rxLock (s : State) : (s.frameGone).rxLock = s.rxLock := rfl
@[simp] theorem frameGone_txPending (s : State) : (s.frameGone).txPending = s.txPending := rfl
@[simp] theorem frameGone_txInflight (s : State) : (s.frameGone).txInflight = s.txInflight := rfl
@[simp] theorem frameGone_irqActive (s : State) : (s.frameGone).irqActive = s.irqActive := rfl
@[simp] theorem frameGone_ops (s : State) : (s.frameGone).ops = s.ops := rfl
@[simp] theorem frameGone_txReady (s : State) : (s.frameGone).txReady = s.txReady := rfl
@[simp] theorem frameGone_rxReady (s : State) : (s.frameGone).rxReady = s.rxReady := rfl
@[simp] theorem frameGone_failed (s : State) : (s.frameGone).failed = s.failed := rfl
@[simp] theorem frameGone_cfg (s : State) : (s.frameGone).cfg = s.cfg := rfl
@[simp] theorem frameGone_issuer (s : State) : (s.frameGone).issuer = s.issuer := rfl
@[simp] theorem frameGone_inputs (s : State) : (s.frameGone).inputs = s.inputs := rfl
@[simp] theorem frameGone_frames (s : State) : (s.frameGone).frames = s.frames.tail := rfl
@[simp] theorem frameGone_allocs (s : State) : (s.frameGone).allocs = s.allocs := rfl
@[simp] theorem frameGone_draws (s : State) : (s.frameGone).draws = s.draws + 1 := rfl
@[simp] theorem frameGone_out (s : State) : (s.frameGone).out = s.out := rfl

@[simp] theorem taking_regs (a : Agent) (l : List Event) (s : State) : (s.taking a l).regs = s.regs := rfl
@[simp] theorem taking_mem (a : Agent) (l : List Event) (s : State) : (s.taking a l).mem = s.mem := rfl
@[simp] theorem taking_txBuf (a : Agent) (l : List Event) (s : State) : (s.taking a l).txBuf = s.txBuf := rfl
@[simp] theorem taking_rxBuf (a : Agent) (l : List Event) (s : State) : (s.taking a l).rxBuf = s.rxBuf := rfl
@[simp] theorem taking_bufs (a : Agent) (l : List Event) (s : State) : (s.taking a l).bufs = s.bufs := rfl
@[simp] theorem taking_txLock (a : Agent) (l : List Event) (s : State) : (s.taking a l).txLock = s.txLock := rfl
@[simp] theorem taking_rxLock (a : Agent) (l : List Event) (s : State) : (s.taking a l).rxLock = s.rxLock := rfl
@[simp] theorem taking_txPending (a : Agent) (l : List Event) (s : State) : (s.taking a l).txPending = s.txPending := rfl
@[simp] theorem taking_txInflight (a : Agent) (l : List Event) (s : State) : (s.taking a l).txInflight = s.txInflight := rfl
@[simp] theorem taking_irqActive (a : Agent) (l : List Event) (s : State) : (s.taking a l).irqActive = s.irqActive := rfl
@[simp] theorem taking_ops (a : Agent) (l : List Event) (s : State) : (s.taking a l).ops = s.ops := rfl
@[simp] theorem taking_txReady (a : Agent) (l : List Event) (s : State) : (s.taking a l).txReady = s.txReady := rfl
@[simp] theorem taking_rxReady (a : Agent) (l : List Event) (s : State) : (s.taking a l).rxReady = s.rxReady := rfl
@[simp] theorem taking_failed (a : Agent) (l : List Event) (s : State) : (s.taking a l).failed = s.failed := rfl
@[simp] theorem taking_cfg (a : Agent) (l : List Event) (s : State) : (s.taking a l).cfg = s.cfg := rfl
@[simp] theorem taking_issuer (a : Agent) (l : List Event) (s : State) : (s.taking a l).issuer = a := rfl
@[simp] theorem taking_inputs (a : Agent) (l : List Event) (s : State) : (s.taking a l).inputs = l := rfl
@[simp] theorem taking_frames (a : Agent) (l : List Event) (s : State) : (s.taking a l).frames = s.frames := rfl
@[simp] theorem taking_allocs (a : Agent) (l : List Event) (s : State) : (s.taking a l).allocs = s.allocs := rfl
@[simp] theorem taking_draws (a : Agent) (l : List Event) (s : State) : (s.taking a l).draws = s.draws := rfl
@[simp] theorem taking_out (a : Agent) (l : List Event) (s : State) : (s.taking a l).out = s.out := rfl

@[simp] theorem acknowledge_regs (v : Word) (s : State) :
    (acknowledge v s).regs = { s.regs with icr := clearCauses s.regs.icr v } := rfl
@[simp] theorem acknowledge_mem (v : Word) (s : State) : (acknowledge v s).mem = s.mem := rfl
@[simp] theorem acknowledge_txBuf (v : Word) (s : State) : (acknowledge v s).txBuf = s.txBuf := rfl
@[simp] theorem acknowledge_rxBuf (v : Word) (s : State) : (acknowledge v s).rxBuf = s.rxBuf := rfl
@[simp] theorem acknowledge_bufs (v : Word) (s : State) : (acknowledge v s).bufs = s.bufs := rfl
@[simp] theorem acknowledge_txLock (v : Word) (s : State) : (acknowledge v s).txLock = s.txLock := rfl
@[simp] theorem acknowledge_rxLock (v : Word) (s : State) : (acknowledge v s).rxLock = s.rxLock := rfl
@[simp] theorem acknowledge_txPending (v : Word) (s : State) : (acknowledge v s).txPending = s.txPending := rfl
@[simp] theorem acknowledge_txInflight (v : Word) (s : State) : (acknowledge v s).txInflight = s.txInflight := rfl
@[simp] theorem acknowledge_irqActive (v : Word) (s : State) : (acknowledge v s).irqActive = s.irqActive := rfl
@[simp] theorem acknowledge_ops (v : Word) (s : State) : (acknowledge v s).ops = s.ops := rfl
@[simp] theorem acknowledge_txReady (v : Word) (s : State) : (acknowledge v s).txReady = s.txReady := rfl
@[simp] theorem acknowledge_rxReady (v : Word) (s : State) : (acknowledge v s).rxReady = s.rxReady := rfl
@[simp] theorem acknowledge_failed (v : Word) (s : State) : (acknowledge v s).failed = s.failed := rfl
@[simp] theorem acknowledge_cfg (v : Word) (s : State) : (acknowledge v s).cfg = s.cfg := rfl
@[simp] theorem acknowledge_issuer (v : Word) (s : State) : (acknowledge v s).issuer = s.issuer := rfl
@[simp] theorem acknowledge_inputs (v : Word) (s : State) : (acknowledge v s).inputs = s.inputs := rfl
@[simp] theorem acknowledge_frames (v : Word) (s : State) : (acknowledge v s).frames = s.frames := rfl
@[simp] theorem acknowledge_allocs (v : Word) (s : State) : (acknowledge v s).allocs = s.allocs := rfl
@[simp] theorem acknowledge_draws (v : Word) (s : State) : (acknowledge v s).draws = s.draws := rfl
@[simp] theorem acknowledge_out (v : Word) (s : State) : (acknowledge v s).out = s.out := rfl

end Sys2Proof.Machine
end

