-- ==== Sys2Proof/Laws/Ops.lean ====
section
/-! SUPPORT. One lemma per shared operation: everything it can do when it answers a next state. Proofs
about instructions and phases cite these instead of unfolding the operations. -/

namespace Sys2Proof.Machine

open Sys2Proof

/-! Results, admission, locks. -/

theorem andThen_eq_next {r : Result} {k : State → Result} {t : State} :
    andThen r k = .next t ↔ ∃ s, r = .next s ∧ k s = .next t := by
  cases r <;> simp [andThen]

@[simp] theorem andThen_next (s : State) (k : State → Result) : andThen (.next s) k = k s := rfl

@[simp] theorem andThen_refused (x : Refusal) (k : State → Result) : andThen (.refused x) k = .refused x := rfl

@[simp] theorem andThen_fault (f : Fault) (k : State → Result) : andThen (.fault f) k = .fault f := rfl

theorem done_eq_next {s t : State} : done s = .next t ↔ s.respond codeOk 0 = t := by
  simp [done]

theorem admission_eq_next {c : AgentClass} {s t : State} {r : Result} :
    admission c s r = .next t ↔
      s.failed = false ∧ c.allows s.issuer = true ∧ s.opOf s.issuer = none ∧ r = .next t := by
  unfold admission
  cases hf : s.failed <;> cases ha : c.allows s.issuer <;> cases ho : s.opOf s.issuer <;> simp

/-- An operation that is admitted is what it is without the test. -/
theorem admission_of_canIssue {c : AgentClass} {s : State} {r : Result} (h : CanIssue c s) : admission c s r = r := by
  obtain ⟨hf, ha, ho⟩ := h
  simp [admission, hf, ha, ho]

/-- What refuses when admitted refuses always. -/
theorem admission_refuses {c : AgentClass} {s : State} {r : Result} (h : Refuses r) : Refuses (admission c s r) := by
  unfold admission
  split
  · exact ⟨_, rfl⟩
  · split
    · exact ⟨_, rfl⟩
    · split
      · exact ⟨_, rfl⟩
      · exact h

theorem lockThen_eq_next {r : Ring} {w s t : State} {k : State → Result} :
    lockThen r w s k = .next t ↔
      (s.lockOf r = .free ∧ k (s.setLock r (.held s.issuer)) = .next t) ∨
      (∃ a, s.lockOf r = .held a ∧ a ≠ s.issuer ∧ w = t) := by
  unfold lockThen
  split
  · rename_i h; simp [h]
  · rename_i a h
    by_cases e : a = s.issuer <;> simp [h, e]

theorem unlockThen_eq_next {r : Ring} {s t : State} {k : State → Result} :
    unlockThen r s k = .next t ↔ s.lockOf r = .held s.issuer ∧ k (s.setLock r .free) = .next t := by
  unfold unlockThen State.holdsLock
  by_cases h : s.lockOf r = .held s.issuer <;> simp [h]

@[simp] theorem lockOf_setLock_self (r : Ring) (l : Lock) (s : State) : (s.setLock r l).lockOf r = l := by
  cases r <;> rfl

theorem lockOf_setLock_other {r q : Ring} (h : q ≠ r) (l : Lock) (s : State) : (s.setLock r l).lockOf q = s.lockOf q := by
  cases r <;> cases q <;> first | rfl | exact absurd rfl h

/-! Operations in progress. -/

theorem opOf_setOp_self (o : Op) (s : State) : (s.setOp o).opOf s.issuer = some o :=
  Assoc.lookup_insert_self _ _ _

theorem opOf_clearOp_self (s : State) : s.clearOp.opOf s.issuer = none := Assoc.lookup_erase_self _ _

theorem agentKey_injective {a b : Agent} (h : agentKey a = agentKey b) : a = b := by
  cases a <;> cases b <;> simp_all [agentKey]

theorem opOf_setOp_other {a : Agent} {s : State} (h : a ≠ s.issuer) (o : Op) : (s.setOp o).opOf a = s.opOf a :=
  Assoc.lookup_insert_other (fun e => h (agentKey_injective e)) _ _

theorem opOf_clearOp_other {a : Agent} {s : State} (h : a ≠ s.issuer) : s.clearOp.opOf a = s.opOf a :=
  Assoc.lookup_erase_other (fun e => h (agentKey_injective e)) _

/-! Buffers and ports. -/

theorem bufOf_setBuf_self (h : Handle) (b : Buffer) (s : State) : (s.setBuf h b).bufOf h = some b :=
  Assoc.lookup_insert_self _ _ _

theorem bufOf_setBuf_other {h g : Handle} (e : g ≠ h) (b : Buffer) (s : State) : (s.setBuf h b).bufOf g = s.bufOf g :=
  Assoc.lookup_insert_other (fun k => e (BitVec.eq_of_toNat_eq k)) _ _

theorem bufOf_dropBuf_self (h : Handle) (s : State) : (s.dropBuf h).bufOf h = none := Assoc.lookup_erase_self _ _

theorem bufOf_dropBuf_other {h g : Handle} (e : g ≠ h) (s : State) : (s.dropBuf h).bufOf g = s.bufOf g :=
  Assoc.lookup_erase_other (fun k => e (BitVec.eq_of_toNat_eq k)) _

theorem freeBuf_eq_next {h : Handle} {s t : State} :
    freeBuf h s = .next t ↔ (∃ b, s.bufOf h = some b) ∧ (s.dropBuf h).emit (.free h) = t := by
  unfold freeBuf
  cases hb : s.bufOf h <;> simp

theorem freeSlotBuf_eq_next {x : Option Handle} {s t : State} :
    freeSlotBuf x s = .next t ↔
      (x = none ∧ s = t) ∨ (∃ h b, x = some h ∧ s.bufOf h = some b ∧ (s.dropBuf h).emit (.free h) = t) := by
  unfold freeSlotBuf
  cases x with
  | none => simp
  | some h => simp [freeBuf_eq_next]

theorem appendBuf_eq_next {h : Handle} {n : Nat} {s t : State} :
    appendBuf h n s = .next t ↔
      n ≤ s.cfg.rxBufBytes ∧ ∃ b, s.bufOf h = some b ∧ (s.setBuf h { b with len := n }).emit (.append h n) = t := by
  unfold appendBuf
  by_cases hn : s.cfg.rxBufBytes < n
  · simp [hn]
  · cases hb : s.bufOf h <;> simp [hn, Nat.le_of_not_lt hn]

theorem deliverBuf_eq_next {h : Handle} {s t : State} :
    deliverBuf h s = .next t ↔
      ∃ b, s.bufOf h = some b ∧ (s.setBuf h { b with holder := .upstream }).emit (.deliver h) = t := by
  unfold deliverBuf
  cases hb : s.bufOf h <;> simp

/-- What an answer of the allocator satisfies (R186). -/
theorem allocAnswer_eq_some {x : List Region} {s : State} {g : Grant} (h : allocAnswer x s = some g) :
    proposal s = some g ∧ g.handle ≠ 0 ∧ s.bufOf g.handle = none
      ∧ placeable s.cfg (runAt g.addr s.cfg.rxBufBytes) (x ++ liveRegions s) = true := by
  unfold allocAnswer at h
  split at h
  · rename_i g' hp
    split at h
    · rename_i hg
      cases h
      simp only [grantOk, areaPlaceable, Bool.and_eq_true, bne_iff_ne, Option.isNone_iff_eq_none] at hg
      exact ⟨hp, hg.1.1, hg.1.2, hg.2⟩
    · cases h
  · cases h

theorem allocThen_eq_next {x : List Region} {n : Idx} {s t : State} {k : Option Handle → State → Result} :
    allocThen x n s k = .next t ↔ badGrant x s = false ∧ k (allocHandle x s) (allocate x n s) = .next t := by
  unfold allocThen
  cases badGrant x s <;> simp

/-- An input grant that R186 admits, or an input failure, is not a bad grant. -/
theorem badGrant_eq_false {x : List Region} {s : State} :
    badGrant x s = false ↔ ∀ g l, s.allocs = some g :: l → grantOk x g s = true := by
  unfold badGrant
  split
  · rename_i g l h; simp [h]
  · rename_i h; exact ⟨fun _ g l e => absurd e (h g l), fun _ => rfl⟩

/-- The buffers after ALLOC: as before on failure, one fresh buffer more on success. -/
theorem allocate_bufs (x : List Region) (n : Idx) (s : State) :
    (allocate x n s).bufs =
      match allocAnswer x s with
      | some g => Assoc.insert g.handle.toNat (freshBuffer g s.issuer s) s.bufs
      | none => s.bufs := by
  cases h : allocAnswer x s <;> simp [allocate, h]

/-! Regions. -/

theorem regionsApart_comm (a b : Region) : regionsApart a b = regionsApart b a := by
  unfold regionsApart
  ac_rfl

theorem inMemory_iff {p : Config.Params} {a : Region} :
    inMemory p a = true ↔
      a.lo + a.size ≤ Config.addrTop ∧ ∃ r ∈ p.memory, r.lo ≤ a.lo ∧ a.lo + a.size ≤ r.lo + r.size := by
  simp [inMemory, regionWithin]

theorem regionsApart_iff {a b : Region} :
    regionsApart a b = true ↔ a.size = 0 ∨ b.size = 0 ∨ a.lo + a.size ≤ b.lo ∨ b.lo + b.size ≤ a.lo := by
  simp [regionsApart, or_assoc]

/-- What is memory does not pass the top of the address space (R76). -/
theorem inMemory_fits {p : Config.Params} {a : Region} (h : inMemory p a = true) : a.lo + a.size ≤ Config.addrTop := by
  exact (inMemory_iff.mp h).1

theorem placeable_iff {p : Config.Params} {a : Region} {l : List Region} :
    placeable p a l = true ↔ inMemory p a = true ∧ ∀ b ∈ l, regionsApart a b = true := by
  simp [placeable]

theorem admissible_iff {b : Buffer} {s : State} :
    admissible b s = true ↔
      b.len ≤ b.area ∧ s.cfg.rxBufBytes ≤ b.area ∧ placeable s.cfg (runAt b.addr b.area) (liveRegions s) = true := by
  simp [admissible, areaPlaceable, and_assoc]

/-- A region inside one that is placeable is placeable (R75). -/
theorem placeable_shrink {p : Config.Params} {lo m n : Nat} {l : List Region} (h : m ≤ n)
    (hp : placeable p { lo := lo, size := n } l = true) : placeable p { lo := lo, size := m } l = true := by
  rw [placeable_iff] at hp ⊢
  obtain ⟨hm, ha⟩ := hp
  refine ⟨?_, fun b hb => ?_⟩
  · obtain ⟨h1, r, hr, h2, h3⟩ := inMemory_iff.mp hm
    exact inMemory_iff.mpr ⟨by simp only at h1 ⊢; omega, r, hr, h2, by simp only at h3 ⊢; omega⟩
  · have := regionsApart_iff.mp (ha b hb)
    exact regionsApart_iff.mpr (by simp only at this ⊢; omega)

/-- Of finitely many numbers with one at most `x`, one is the largest at most `x`. -/
theorem exists_greatest_le {x : Nat} (l : List Nat) (h : ∃ c ∈ l, c ≤ x) :
    ∃ c ∈ l, c ≤ x ∧ ∀ d ∈ l, d ≤ x → d ≤ c := by
  induction l with
  | nil => obtain ⟨c, hc, -⟩ := h; cases hc
  | cons a l ih =>
    by_cases hl : ∃ c ∈ l, c ≤ x
    · obtain ⟨c, hc, hx, hm⟩ := ih hl
      by_cases ha : a ≤ x ∧ c ≤ a
      · refine ⟨a, List.mem_cons_self, ha.1, fun d hd hdx => ?_⟩
        rcases List.mem_cons.mp hd with rfl | hd
        · exact Nat.le_refl _
        · exact Nat.le_trans (hm d hd hdx) ha.2
      · refine ⟨c, List.mem_cons_of_mem _ hc, hx, fun d hd hdx => ?_⟩
        rcases List.mem_cons.mp hd with rfl | hd
        · omega
        · exact hm d hd hdx
    · obtain ⟨c, hc, hx⟩ := h
      rcases List.mem_cons.mp hc with rfl | hc
      · refine ⟨c, List.mem_cons_self, hx, fun d hd hdx => ?_⟩
        rcases List.mem_cons.mp hd with rfl | hd
        · exact Nat.le_refl _
        · exact absurd ⟨d, hd, hdx⟩ hl
      · exact absurd ⟨c, hc, hx⟩ hl

/-- A spare address is one at which a payload area fits. -/
theorem spareAddress_eq_some {s : State} {a : Addr} (h : spareAddress s = some a) :
    placeable s.cfg (runAt a s.cfg.rxBufBytes) (liveRegions s) = true := by
  simpa [areaPlaceable] using List.find?_some h

/-- Where a payload area fits somewhere, there is a spare address: move it down until it meets the start of its run
of memory or the end of a region in use. -/
theorem spareAddress_of_place {s : State} {a : Addr}
    (h : placeable s.cfg (runAt a s.cfg.rxBufBytes) (liveRegions s) = true) : ∃ b, spareAddress s = some b := by
  obtain ⟨hm, ha⟩ := placeable_iff.mp h
  obtain ⟨htop, r, hr, h2, h3⟩ := inMemory_iff.mp hm
  simp only [runAt] at htop h2 h3
  obtain ⟨c, hc, hx, hg⟩ := exists_greatest_le (x := a.toNat)
    (s.cfg.memory.map Region.lo ++ (liveRegions s).map (fun q => q.lo + q.size))
    ⟨r.lo, List.mem_append_left _ (List.mem_map_of_mem hr), h2⟩
  have hrc := hg r.lo (List.mem_append_left _ (List.mem_map_of_mem hr)) h2
  have hlt : (BitVec.ofNat 64 c).toNat = c := by
    have := a.isLt
    simp only [BitVec.toNat_ofNat]
    omega
  have hp : areaPlaceable [] (BitVec.ofNat 64 c) s.cfg.rxBufBytes s = true := by
    simp only [areaPlaceable, List.nil_append]
    rw [placeable_iff]
    simp only [runAt, hlt]
    refine ⟨inMemory_iff.mpr ⟨by simp only; omega, r, hr, hrc, by simp only; omega⟩, fun b hb => regionsApart_iff.mpr ?_⟩
    have h4 := regionsApart_iff.mp (ha b hb)
    have h5 := hg (b.lo + b.size) (List.mem_append_right _ (List.mem_map.mpr ⟨b, hb, rfl⟩))
    simp only [runAt] at h4 ⊢
    omega
  cases e : spareAddress s with
  | some b => exact ⟨b, rfl⟩
  | none =>
    have := List.find?_eq_none.mp e (BitVec.ofNat 64 c) (List.mem_map_of_mem hc)
    exact absurd hp this

/-- A pool buffer that becomes live is one that R43, R75 and R186 allow. -/
theorem pooledBuffer_admissible {h : Handle} {s : State} {b : Buffer} (e : pooledBuffer h s = some b) :
    admissible b s = true := by
  unfold pooledBuffer at e
  split at e
  · rename_i ok
    cases e
    exact ok
  · obtain ⟨a, ha, rfl⟩ := Option.map_eq_some_iff.mp e
    exact admissible_iff.mpr ⟨Nat.zero_le _, Nat.le_refl _, spareAddress_eq_some ha⟩

/-- There is no pool buffer exactly where no payload area of RX_BUF_BYTES fits (R75). -/
theorem pooledBuffer_eq_none {h : Handle} {s : State} :
    pooledBuffer h s = none ↔
      ∀ a, placeable s.cfg (runAt a s.cfg.rxBufBytes) (liveRegions s) = false := by
  constructor
  · intro e a
    cases hp : placeable s.cfg (runAt a s.cfg.rxBufBytes) (liveRegions s) with
    | false => rfl
    | true =>
      obtain ⟨b, hb⟩ := spareAddress_of_place hp
      unfold pooledBuffer at e
      split at e
      · cases e
      · simp [hb] at e
  · intro e
    unfold pooledBuffer
    split
    · rename_i ok
      obtain ⟨-, hl, hp⟩ := admissible_iff.mp ok
      exact absurd (placeable_shrink hl hp) (by simpa [runAt] using e (freeObject h s).addr)
    · cases hs : spareAddress s with
      | none => rfl
      | some a => exact absurd (spareAddress_eq_some hs) (by simp [e a])

theorem liveThen_eq_next {h : Handle} {s t : State} {k : State → Result} :
    liveThen h s k = .next t ↔
      ((∃ b, s.bufOf h = some b) ∧ k s = .next t) ∨
      (s.bufOf h = none ∧ ∃ b, pooledBuffer h s = some b ∧ k { s.setBuf h b with draws := s.draws + 1 } = .next t) := by
  unfold liveThen
  cases s.bufOf h <;> cases pooledBuffer h s <;> simp

/-! Ring operations. -/

theorem whenSendable_eq_next {b : Handle} {s t : State} {r : Result} :
    whenSendable b s r = .next t ↔
      s.holderOf b = .caller s.issuer ∧ 1 ≤ s.payloadLength b ∧ s.payloadLength b ≤ 0xFFFF ∧ r = .next t := by
  unfold whenSendable
  by_cases h1 : s.holderOf b = .caller s.issuer
  · by_cases h2 : s.payloadLength b = 0 ∨ 0xFFFF < s.payloadLength b
    · simp only [h1, h2, ne_eq, not_true_eq_false, if_false, if_true, reduceCtorEq, true_and, false_iff]
      omega
    · simp only [h1, h2, ne_eq, not_true_eq_false, if_false, true_and]
      constructor
      · intro h; exact ⟨by omega, by omega, h⟩
      · intro h; exact h.2.2
  · simp [h1]

theorem markOwned_eq_next {r : Ring} {i : Nat} {c : Byte} {s t : State} :
    markOwned r i c s = .next t ↔
      s.lockOf r = .held s.issuer ∧ ringReady r s = true ∧ i < ringSize r s ∧ ringInMemory r s = true ∧
        cmdOk r c = true ∧
        (match r with
          | .tx => setDescStatus .tx i 0 (setTxdCmd i c s)
          | .rx => setDescStatus .rx i 0 s) = t := by
  unfold markOwned State.holdsLock
  by_cases h1 : s.lockOf r = .held s.issuer
  · by_cases h5 : ringReady r s = true
    · by_cases h2 : ringSize r s ≤ i
      · simp [h1, h2, h5]
      · by_cases h4 : ringInMemory r s = true
        · by_cases h3 : cmdOk r c = true
          · cases r <;> simp [h1, h2, h3, h4, h5, Nat.lt_of_not_le h2]
          · simp [h1, h2, h3, h4, h5]
        · simp [h1, h2, h4, h5]
    · simp [h1, h5]
  · simp [h1]

theorem installSlot_eq_next {r : Ring} {i : Nat} {x : Option Handle} {s t : State} :
    installSlot r i x s = .next t ↔
      s.lockOf r = .held s.issuer ∧ ringReady r s = true ∧ i < ringSize r s ∧
        ((x = none ∧ s.setSlot r i none = t) ∨
          ∃ h, x = some h ∧ inOtherSlot h r i s = false ∧
            liveThen h s (fun u => .next ((u.setSlot r i (some h)).installHolder h r i)) = .next t) := by
  unfold installSlot State.holdsLock
  by_cases h1 : s.lockOf r = .held s.issuer
  · by_cases h3 : ringReady r s = true
    · by_cases h2 : ringSize r s ≤ i
      · simp [h1, h2, h3]
      · cases x with
        | none => simp [h1, h2, h3, Nat.lt_of_not_le h2]
        | some h => by_cases h4 : inOtherSlot h r i s = true <;> simp [h1, h2, h3, h4, Nat.lt_of_not_le h2]
    · simp [h1, h3]
  · simp [h1]

/-! The drain's contract, and overwriting what the hardware has. -/

theorem irq_allows {a : Agent} : AgentClass.irq.allows a = true ↔ a = .irq := by
  cases a <;> simp [AgentClass.allows]

/-- RX_DRAIN begins exactly where a handler stands at phase I3 under the lock, and changes nothing yet (R220). -/
theorem startDrain_eq_next {s t : State} : startDrain s = .next t ↔ AtDrain s ∧ s.rxReady = true ∧ s = t := by
  unfold startDrain
  constructor
  · intro h
    split at h
    · cases h
    · rename_i hf
      split at h
      · cases h
      · rename_i ha
        split at h
        · cases h
        · rename_i hr
          split at h
          · cases h
          · rename_i o ho
            split at h
            · cases h
            · rename_i hp
              split at h
              · cases h
              · rename_i hl
                cases h
                simp only [Bool.not_eq_true, Bool.not_eq_true', Bool.not_eq_false, ne_eq, not_not] at hf ha hr hp hl
                exact ⟨⟨hf, irq_allows.mp ha, hp ▸ ho, by simpa [State.holdsLock, State.lockOf] using hl⟩, hr, rfl⟩
  · rintro ⟨⟨hf, hi, hp, hl⟩, hr, rfl⟩
    rw [hf, hr, hp]
    simp [irq_allows.mpr hi, State.holdsLock, State.lockOf, hl]

theorem mutate_eq_next {r : Ring} {p : Part} {i off : Nat} {bytes : List Byte} {s t : State} :
    mutate r p i off bytes s = .next t ↔
      ∃ a n, mutableArea r p i s = some (a, n) ∧ off + bytes.length ≤ n ∧
        s.storeBytes (a + BitVec.ofNat 64 off) bytes = t := by
  unfold mutate
  cases h : mutableArea r p i s with
  | none => simp
  | some x =>
    obtain ⟨a, n⟩ := x
    by_cases hn : n < off + bytes.length
    · simp only [hn, if_true, reduceCtorEq, Option.some.injEq, Prod.mk.injEq, false_iff]
      rintro ⟨_, _, ⟨rfl, rfl⟩, h, -⟩
      omega
    · simp [hn, Nat.le_of_not_lt hn]

/-! Register writes. -/

theorem beforeReady_eq_next {r : Ring} {s t : State} {w : Result} :
    beforeReady r s w = .next t ↔ ringReady r s = false ∧ w = .next t := by
  unfold beforeReady
  cases h : ringReady r s <;> simp

theorem wrTdt_eq_next {v : Word} {s t : State} :
    wrTdt v s = .next t ↔
      (s.txReady = false ∧ v = 0 ∧ { s with regs := { s.regs with tdt := 0 } } = t) ∨
      (s.txReady = true ∧ s.txLock = .held s.issuer ∧ indexOk v = true ∧ indexField v < ringSize .tx s ∧
        s.txPending + ringDist (tailIndex .tx s) (indexField v) (ringSize .tx s) ≤ ringSize .tx s ∧
        { s with
          regs := { s.regs with tdt := v }
          txPending := s.txPending + ringDist (tailIndex .tx s) (indexField v) (ringSize .tx s) } = t) := by
  unfold wrTdt
  cases h1 : s.txReady with
  | false => by_cases h2 : v = 0#32 <;> simp [h2]
  | true =>
    by_cases hl : s.txLock = .held s.issuer
    · cases h2 : indexOk v with
      | false => simp [State.holdsLock, State.lockOf, hl]
      | true =>
        by_cases h3 : ringSize .tx s ≤ indexField v
        · simp [State.holdsLock, State.lockOf, hl, h3]
        · by_cases h4 : ringSize .tx s < s.txPending + ringDist (tailIndex .tx s) (indexField v) (ringSize .tx s)
          · simp [State.holdsLock, State.lockOf, hl, h3, h4]
          · simp [State.holdsLock, State.lockOf, hl, h3, h4, Nat.lt_of_not_le h3, Nat.le_of_not_lt h4]
    · simp [State.holdsLock, State.lockOf, hl]

theorem wrRdt_eq_next {v : Word} {s t : State} :
    wrRdt v s = .next t ↔
      (s.rxReady = true → s.rxLock = .held s.issuer) ∧ indexOk v = true ∧ indexField v < ringSize .rx s ∧
        { s with regs := { s.regs with rdt := v } } = t := by
  unfold wrRdt State.holdsLock State.lockOf
  cases h1 : s.rxReady <;> by_cases hl : s.rxLock = .held s.issuer <;> cases h2 : indexOk v <;>
    by_cases h3 : ringSize .rx s ≤ indexField v <;> simp [hl, h3, Nat.lt_of_not_le]

theorem wrIcr_eq_next {v : Word} {s t : State} :
    wrIcr v s = .next t ↔ causeWriteOk v = true ∧ acknowledge v s = t := by
  unfold wrIcr
  cases causeWriteOk v <;> simp

theorem wrIms_eq_next {v : Word} {s t : State} :
    wrIms v s = .next t ↔
      v &&& ~~~rxt0 = 0 ∧ { s with regs := { s.regs with ims := setMask s.regs.ims v } } = t := by
  unfold wrIms
  by_cases h : v &&& ~~~rxt0 = 0#32 <;> simp [h]

theorem wrCtrl_eq_next {v : Word} {s t : State} :
    wrCtrl v s = .next t ↔ (v = 0 ∧ s = t) ∨ (v = ctrlRst ∧ quiet s = true ∧ blockReset s = t) := by
  unfold wrCtrl
  by_cases h0 : v = 0#32
  · subst h0; simp [ctrlRst]
  · by_cases h1 : v = ctrlRst
    · subst h1; cases h2 : quiet s <;> simp [ctrlRst]
    · simp [h0, h1]

/-! Where fields lie: an address depends on the registers alone. -/

theorem descAddr_congr {s t : State} (h : t.regs = s.regs) (r : Ring) (i o : Nat) : descAddr r i o t = descAddr r i o s := by
  cases r <;> simp [descAddr, ringBase, h]

theorem ringSize_congr {s t : State} (h : t.regs = s.regs) (r : Ring) : ringSize r t = ringSize r s := by
  cases r <;> simp [ringSize, ringBytes, h]

theorem tailIndex_congr {s t : State} (h : t.regs = s.regs) (r : Ring) : tailIndex r t = tailIndex r s := by
  cases r <;> simp [tailIndex, h]

theorem headIndex_congr {s t : State} (h : t.regs = s.regs) (r : Ring) : headIndex r t = headIndex r s := by
  cases r <;> simp [headIndex, h]

/-! Indices as registers hold them. -/

theorem ringSize_lt (r : Ring) (s : State) : ringSize r s < 2 ^ 16 := by
  have h : ∀ v : Word, lengthField v < 2 ^ 20 := fun v => BitVec.isLt _
  cases r <;> simp only [ringSize, ringBytes, Config.descBytes]
  · have := h s.regs.tdlen; omega
  · have := h s.regs.rdlen; omega

theorem indexField_lt (v : Word) : indexField v < 2 ^ 16 := BitVec.isLt _

theorem indexField_indexWord {i : Nat} (h : i < 2 ^ 16) : indexField (indexWord i) = i := by
  simp only [indexField, indexWord, BitVec.extractLsb'_toNat, BitVec.toNat_ofNat, Nat.shiftRight_zero]
  omega

theorem indexOk_indexWord {i : Nat} (h : i < 2 ^ 16) : indexOk (indexWord i) = true := by
  have h2 : indexWord i = (BitVec.ofNat 16 i).setWidth 32 := by
    apply BitVec.eq_of_toNat_eq
    simp only [indexWord, BitVec.toNat_ofNat, BitVec.toNat_setWidth]
    omega
  rw [h2]
  have h3 : ∀ x : BitVec 16, indexOk (x.setWidth 32) = true := by
    intro x
    simp only [indexOk, beq_iff_eq]
    apply BitVec.eq_of_toNat_eq
    simp only [BitVec.toNat_and, BitVec.toNat_setWidth]
    apply Nat.eq_of_testBit_eq
    intro j
    have hx := x.isLt
    simp only [Nat.testBit_and, Nat.testBit_mod_two_pow]
    by_cases hj : j < 16
    · have : Nat.testBit 4294901760 j = false := by
        interval_cases j <;> decide
      simp [this]
    · have : x.toNat.testBit j = false := Nat.testBit_lt_two_pow (Nat.lt_of_lt_of_le hx (Nat.pow_le_pow_right (by decide) (by omega)))
      simp [this]
  exact h3 _

theorem ringNext_lt {i n : Nat} (h : 0 < n) : ringNext i n < n := Nat.mod_lt _ h

theorem ringDist_lt {a b n : Nat} (h : 0 < n) : ringDist a b n < n := Nat.mod_lt _ h

end Sys2Proof.Machine
end

