-- ==== Sys2Proof/Laws/PerInstr.lean ====
section
/-! SUPPORT. One statement per instruction about its word: the reserved field is zero (R102) and the
operation code is the instruction's own in the table of R103. -/

namespace Sys2Proof.Laws.CanonicalWord

open Sys2Proof

/-- The operation code of an instruction in the table of R103. -/
def code : Instr → Byte
  | .lock _ => 0x01
  | .unlock _ => 0x02
  | .fence => 0x03
  | .slotStatus _ _ => 0x10
  | .markHwOwned _ _ _ => 0x11
  | .installBuf _ _ _ => 0x12
  | .transmit _ => 0x20
  | .rxDrain => 0x30
  | .irqHandler => 0x40
  | .ringInitTx _ => 0x50
  | .ringInitRx _ => 0x50
  | .rd32Ctrl => 0x60
  | .wr32Ctrl _ => 0x61
  | .rd32Icr => 0x60
  | .wr32Icr _ => 0x61
  | .rd32Ims => 0x60
  | .wr32Ims _ => 0x61
  | .rd32Rctl => 0x60
  | .wr32Rctl _ => 0x61
  | .rd32Tctl => 0x60
  | .wr32Tctl _ => 0x61
  | .rd32Rdbal => 0x60
  | .wr32Rdbal _ => 0x61
  | .rd32Rdbah => 0x60
  | .wr32Rdbah _ => 0x61
  | .rd32Rdlen => 0x60
  | .wr32Rdlen _ => 0x61
  | .rd32Rdh => 0x60
  | .wr32Rdh _ => 0x61
  | .rd32Rdt => 0x60
  | .wr32Rdt _ => 0x61
  | .rd32Rdtr => 0x60
  | .wr32Rdtr _ => 0x61
  | .rd32Radv => 0x60
  | .wr32Radv _ => 0x61
  | .rd32Tdbal => 0x60
  | .wr32Tdbal _ => 0x61
  | .rd32Tdbah => 0x60
  | .wr32Tdbah _ => 0x61
  | .rd32Tdlen => 0x60
  | .wr32Tdlen _ => 0x61
  | .rd32Tdh => 0x60
  | .wr32Tdh _ => 0x61
  | .rd32Tdt => 0x60
  | .wr32Tdt _ => 0x61
  | .rd32Ral => 0x60
  | .wr32Ral _ => 0x61
  | .rd32Rah => 0x60
  | .wr32Rah _ => 0x61
  | .rd32Mta _ => 0x60
  | .wr32Mta _ _ => 0x61
  | .devTxFetch => 0x80
  | .devTxDone => 0x81
  | .devRxFrame _ => 0x82
  | .hwReset => 0x8F
  | .alloc _ => 0x90
  | .free _ => 0x91
  | .append _ _ => 0x92
  | .deliver _ => 0x93

/-- The word of the instruction has its own operation code and a zero reserved field. -/
def Statement (i : Instr) : Prop := opOf (encode i) = code i ∧ reservedOf (encode i) = 0

/-- A word put together from fields has those fields. -/
theorem of_fields {i : Instr} (op : Byte) (r : Ring) (idx : Idx) (a : Word) (h : encode i = mkWord op r idx a)
    (hc : code i = op) : Statement i := by
  unfold Statement
  rw [h, hc]
  exact ⟨opOf_mkWord _ _ _ _, reservedOf_mkWord _ _ _ _⟩

theorem lock (r : Ring) : Statement (.lock r) :=
  of_fields 0x01 r 0 0 rfl rfl
theorem unlock (r : Ring) : Statement (.unlock r) :=
  of_fields 0x02 r 0 0 rfl rfl
theorem fence : Statement (.fence) :=
  of_fields 0x03 .tx 0 0 rfl rfl
theorem slotStatus (r : Ring) (i : Idx) : Statement (.slotStatus r i) :=
  of_fields 0x10 r i 0 rfl rfl
theorem markHwOwned (r : Ring) (i : Idx) (c : Byte) : Statement (.markHwOwned r i c) :=
  of_fields 0x11 r i (c.setWidth 32) rfl rfl
theorem installBuf (r : Ring) (i : Idx) (h : Handle) : Statement (.installBuf r i h) :=
  of_fields 0x12 r i h rfl rfl
theorem transmit (b : Handle) : Statement (.transmit b) :=
  of_fields 0x20 .tx 0 b rfl rfl
theorem rxDrain : Statement (.rxDrain) :=
  of_fields 0x30 .rx 0 0 rfl rfl
theorem irqHandler : Statement (.irqHandler) :=
  of_fields 0x40 .tx 0 0 rfl rfl
theorem ringInitTx (n : Idx) : Statement (.ringInitTx n) :=
  of_fields 0x50 .tx n 0 rfl rfl
theorem ringInitRx (n : Idx) : Statement (.ringInitRx n) :=
  of_fields 0x50 .rx n 0 rfl rfl
theorem rd32Ctrl : Statement (.rd32Ctrl) :=
  of_fields 0x60 .tx (Reg.offset .ctrl) 0 rfl rfl
theorem wr32Ctrl (v : Word) : Statement (.wr32Ctrl v) :=
  of_fields 0x61 .tx (Reg.offset .ctrl) v rfl rfl
theorem rd32Icr : Statement (.rd32Icr) :=
  of_fields 0x60 .tx (Reg.offset .icr) 0 rfl rfl
theorem wr32Icr (v : Word) : Statement (.wr32Icr v) :=
  of_fields 0x61 .tx (Reg.offset .icr) v rfl rfl
theorem rd32Ims : Statement (.rd32Ims) :=
  of_fields 0x60 .tx (Reg.offset .ims) 0 rfl rfl
theorem wr32Ims (v : Word) : Statement (.wr32Ims v) :=
  of_fields 0x61 .tx (Reg.offset .ims) v rfl rfl
theorem rd32Rctl : Statement (.rd32Rctl) :=
  of_fields 0x60 .tx (Reg.offset .rctl) 0 rfl rfl
theorem wr32Rctl (v : Word) : Statement (.wr32Rctl v) :=
  of_fields 0x61 .tx (Reg.offset .rctl) v rfl rfl
theorem rd32Tctl : Statement (.rd32Tctl) :=
  of_fields 0x60 .tx (Reg.offset .tctl) 0 rfl rfl
theorem wr32Tctl (v : Word) : Statement (.wr32Tctl v) :=
  of_fields 0x61 .tx (Reg.offset .tctl) v rfl rfl
theorem rd32Rdbal : Statement (.rd32Rdbal) :=
  of_fields 0x60 .tx (Reg.offset .rdbal) 0 rfl rfl
theorem wr32Rdbal (v : Word) : Statement (.wr32Rdbal v) :=
  of_fields 0x61 .tx (Reg.offset .rdbal) v rfl rfl
theorem rd32Rdbah : Statement (.rd32Rdbah) :=
  of_fields 0x60 .tx (Reg.offset .rdbah) 0 rfl rfl
theorem wr32Rdbah (v : Word) : Statement (.wr32Rdbah v) :=
  of_fields 0x61 .tx (Reg.offset .rdbah) v rfl rfl
theorem rd32Rdlen : Statement (.rd32Rdlen) :=
  of_fields 0x60 .tx (Reg.offset .rdlen) 0 rfl rfl
theorem wr32Rdlen (v : Word) : Statement (.wr32Rdlen v) :=
  of_fields 0x61 .tx (Reg.offset .rdlen) v rfl rfl
theorem rd32Rdh : Statement (.rd32Rdh) :=
  of_fields 0x60 .tx (Reg.offset .rdh) 0 rfl rfl
theorem wr32Rdh (v : Word) : Statement (.wr32Rdh v) :=
  of_fields 0x61 .tx (Reg.offset .rdh) v rfl rfl
theorem rd32Rdt : Statement (.rd32Rdt) :=
  of_fields 0x60 .tx (Reg.offset .rdt) 0 rfl rfl
theorem wr32Rdt (v : Word) : Statement (.wr32Rdt v) :=
  of_fields 0x61 .tx (Reg.offset .rdt) v rfl rfl
theorem rd32Rdtr : Statement (.rd32Rdtr) :=
  of_fields 0x60 .tx (Reg.offset .rdtr) 0 rfl rfl
theorem wr32Rdtr (v : Word) : Statement (.wr32Rdtr v) :=
  of_fields 0x61 .tx (Reg.offset .rdtr) v rfl rfl
theorem rd32Radv : Statement (.rd32Radv) :=
  of_fields 0x60 .tx (Reg.offset .radv) 0 rfl rfl
theorem wr32Radv (v : Word) : Statement (.wr32Radv v) :=
  of_fields 0x61 .tx (Reg.offset .radv) v rfl rfl
theorem rd32Tdbal : Statement (.rd32Tdbal) :=
  of_fields 0x60 .tx (Reg.offset .tdbal) 0 rfl rfl
theorem wr32Tdbal (v : Word) : Statement (.wr32Tdbal v) :=
  of_fields 0x61 .tx (Reg.offset .tdbal) v rfl rfl
theorem rd32Tdbah : Statement (.rd32Tdbah) :=
  of_fields 0x60 .tx (Reg.offset .tdbah) 0 rfl rfl
theorem wr32Tdbah (v : Word) : Statement (.wr32Tdbah v) :=
  of_fields 0x61 .tx (Reg.offset .tdbah) v rfl rfl
theorem rd32Tdlen : Statement (.rd32Tdlen) :=
  of_fields 0x60 .tx (Reg.offset .tdlen) 0 rfl rfl
theorem wr32Tdlen (v : Word) : Statement (.wr32Tdlen v) :=
  of_fields 0x61 .tx (Reg.offset .tdlen) v rfl rfl
theorem rd32Tdh : Statement (.rd32Tdh) :=
  of_fields 0x60 .tx (Reg.offset .tdh) 0 rfl rfl
theorem wr32Tdh (v : Word) : Statement (.wr32Tdh v) :=
  of_fields 0x61 .tx (Reg.offset .tdh) v rfl rfl
theorem rd32Tdt : Statement (.rd32Tdt) :=
  of_fields 0x60 .tx (Reg.offset .tdt) 0 rfl rfl
theorem wr32Tdt (v : Word) : Statement (.wr32Tdt v) :=
  of_fields 0x61 .tx (Reg.offset .tdt) v rfl rfl
theorem rd32Ral : Statement (.rd32Ral) :=
  of_fields 0x60 .tx (Reg.offset .ral) 0 rfl rfl
theorem wr32Ral (v : Word) : Statement (.wr32Ral v) :=
  of_fields 0x61 .tx (Reg.offset .ral) v rfl rfl
theorem rd32Rah : Statement (.rd32Rah) :=
  of_fields 0x60 .tx (Reg.offset .rah) 0 rfl rfl
theorem wr32Rah (v : Word) : Statement (.wr32Rah v) :=
  of_fields 0x61 .tx (Reg.offset .rah) v rfl rfl
theorem rd32Mta (k : BitVec 7) : Statement (.rd32Mta k) :=
  of_fields 0x60 .tx (Reg.offset (.mta k)) 0 rfl rfl
theorem wr32Mta (k : BitVec 7) (v : Word) : Statement (.wr32Mta k v) :=
  of_fields 0x61 .tx (Reg.offset (.mta k)) v rfl rfl
theorem devTxFetch : Statement (.devTxFetch) :=
  of_fields 0x80 .tx 0 0 rfl rfl
theorem devTxDone : Statement (.devTxDone) :=
  of_fields 0x81 .tx 0 0 rfl rfl
theorem devRxFrame (len : Idx) : Statement (.devRxFrame len) :=
  of_fields 0x82 .rx len 0 rfl rfl
theorem hwReset : Statement (.hwReset) :=
  of_fields 0x8F .tx 0 0 rfl rfl
theorem alloc (headroom : Idx) : Statement (.alloc headroom) :=
  of_fields 0x90 .tx headroom 0 rfl rfl
theorem free (h : Handle) : Statement (.free h) :=
  of_fields 0x91 .tx 0 h rfl rfl
theorem append (h : Handle) (len : Idx) : Statement (.append h len) :=
  of_fields 0x92 .tx len h rfl rfl
theorem deliver (h : Handle) : Statement (.deliver h) :=
  of_fields 0x93 .tx 0 h rfl rfl

end Sys2Proof.Laws.CanonicalWord
end

