-- ==== Sys2Proof/Tests/Slice0.lean ====
section
/-! SUPPORT. Tests: the refusals of WellFormed, words from the spec's encodings, one or two steps per
instruction with results from the spec's examples and rules, and one witness per claim with hypotheses. -/

namespace Sys2Proof.Tests

set_option Elab.async false

open Sys2Proof Sys2Proof.Machine

/-! Helpers: a small constructed state, after 95_test_vectors.md section 1. -/

/-- The state an operation leads to satisfies `f`. -/
def got (r : Result) (f : State → Bool) : Bool :=
  match r with
  | .next t => f t
  | _ => false

/-- The operation is refused by the name `x`. -/
def refusedBy (r : Result) (x : Refusal) : Bool :=
  match r with
  | .refused y => y == x
  | _ => false

/-- The operation faults by the name `x`. -/
def faultedBy (r : Result) (x : Fault) : Bool :=
  match r with
  | .fault y => y == x
  | _ => false

/-- The last output is the result word `w` to agent `a`. -/
def answered (a : Agent) (w : OpWord) (t : State) : Bool := t.out.getLast? == some (.result a w)

/-- Status bytes 0x01 of sixteen transmit descriptors. -/
def txCells : List Host.Cell := (List.range 16).map fun i => (0x8001000C + 16 * i, 0x01)

/-- The address of `b<i>` in receive descriptor `i` of eight: bytes 1 and 3 of `0x90000000 + 0x800 * i`. -/
def rxCells : List Host.Cell :=
  [(0x80020003, 0x90)] ++
    ((List.range 7).map fun i =>
      [(0x80020011 + 16 * i, BitVec.ofNat 8 (8 * (i + 1))), (0x80020013 + 16 * i, 0x90)]).flatten

/-- `b<k>` in receive slot `k`. -/
def rxBuffer (k : Nat) : Nat × Buffer :=
  (k + 1, { addr := BitVec.ofNat 64 (0x90000000 + 0x800 * k), len := 0, area := 2048, holder := .ring .rx k })

/-- `b1000`, held by T1, 3 bytes long. -/
def callerBuffer : Nat × Buffer := (1001, { addr := 0xA0000000, len := 3, area := 2048, holder := .caller (.thread 1) })

/-- The constructed state with `N_TX` = 16 and `N_RX` = 8, in which T1 holds `b1000` and takes the step. -/
def base : State :=
  { State.reset with
    regs := { Regs.reset with
      ims := 0x80, rctl := 2, tctl := 2
      tdbal := 0x80010000, tdlen := 256, rdbal := 0x80020000, rdlen := 128, rdt := 7 }
    mem := txCells ++ rxCells
    txBuf := List.replicate 16 none
    rxBuf := (List.range 8).map fun k => some (BitVec.ofNat 32 (k + 1))
    bufs := (List.range 8).map rxBuffer ++ [callerBuffer]
    txReady := true, rxReady := true, issuer := .thread 1 }

/-- `base` with the step taken by another agent. -/
def asAgent (a : Agent) (s : State) : State := { s with issuer := a }

/-- The agent that takes the step holds the ring's lock. -/
def locked (r : Ring) (s : State) : State := s.setLock r (.held s.issuer)

/-- `base` after a frame of 60 bytes in slot 0 and one of 1500 in slot 1; the interrupt context takes the
step, and the allocator will answer `b8` and `b9`. -/
def filled : State :=
  { base with
    regs := { base.regs with rdh := 2, icr := 0x80 }
    mem := Memory.writeBytes (Memory.writeBytes base.mem 0x80020008 [60, 0, 0, 0, 1]) 0x80020018 [0xDC, 0x05, 0, 0, 1]
    allocs := [some { handle := 9, addr := 0x90004000 }, some { handle := 10, addr := 0x90004800 }]
    issuer := .irq }

/-- The interrupt context's handler at the head of its drain. -/
def draining (s : State) : State := (locked .rx (asAgent .irq s)).setOp (.irqHandler (.i3 rxStartCtx))

/-- `base` with `b1000` enqueued in slot 0. -/
def enqueued : State :=
  { base with
    regs := { base.regs with tdt := 1 }
    mem := Memory.writeBytes base.mem 0x80010000 [0, 0, 0, 0xA0, 0, 0, 0, 0, 3, 0, 0, 9, 0]
    txBuf := some 1001 :: List.replicate 15 none
    bufs := (List.range 8).map rxBuffer ++
      [(1001, { addr := 0xA0000000, len := 3, area := 2048, holder := .ring .tx 0 })]
    txPending := 1, issuer := .dev }

/-- What DEV_TX_FETCH latches in `enqueued`. -/
def latched : Inflight := { slot := 0, addr := 0xA0000000, length := 3, cmd := 9, bytes := [0, 0, 0] }

/-- `enqueued` with slot 0 in flight. -/
def inFlight : State := { enqueued with txInflight := some latched }

/-- The state after reset, INIT taking the step, with eight answers from the allocator. -/
def fresh : State :=
  { State.reset with
    issuer := .init
    allocs := (List.range 8).map fun k =>
      some { handle := BitVec.ofNat 32 (k + 1), addr := BitVec.ofNat 64 (0x90000000 + 0x800 * k) } }

/-! WellFormed: one ill-formed term per check. -/

theorem test_wellformed_refuses :
    WellFormed (.markHwOwned .tx 0 0x02) = false ∧ WellFormed (.markHwOwned .rx 0 0x01) = false ∧
    WellFormed (.transmit 0) = false ∧ WellFormed (.free 0) = false ∧ WellFormed (.append 0 1) = false ∧
    WellFormed (.deliver 0) = false ∧ WellFormed (.devRxFrame 0) = false ∧ WellFormed (.wr32Ctrl 1) = false ∧
    WellFormed (.wr32Ims 0x81) = false ∧ WellFormed (.wr32Icr 1) = false ∧ WellFormed (.wr32Icr 0xFFFFFF7F) = false ∧ WellFormed (.wr32Rctl 3) = false ∧ WellFormed (.wr32Tctl 4) = false ∧
    WellFormed (.wr32Rdbal 8) = false ∧ WellFormed (.wr32Tdbal 1) = false ∧ WellFormed (.wr32Rdlen 64) = false ∧
    WellFormed (.wr32Tdlen 0x100000) = false ∧ WellFormed (.wr32Rdh 1) = false ∧ WellFormed (.wr32Tdh 1) = false ∧
    WellFormed (.wr32Rdt 0x10000) = false ∧ WellFormed (.wr32Tdt 0x10000) = false ∧
    WellFormed (.wr32Rdtr 1) = false ∧ WellFormed (.wr32Radv 1) = false := by decide +kernel

/-! Decoding: words written out from R102 to R104 and 95_test_vectors.md section 3.1. -/

theorem test_decode_locks :
    decode 0x0000000000000001 = .ok (.lock .tx) ∧ decode 0x0000000000000101 = .ok (.lock .rx) ∧
    decode 0x0000000000000002 = .ok (.unlock .tx) ∧ decode 0x0000000000000102 = .ok (.unlock .rx) ∧
    decode 0x0000000000000003 = .ok .fence := by decide +kernel

theorem test_decode_ring_primitives :
    decode 0x0000000000030010 = .ok (.slotStatus .tx 3) ∧ decode 0x0000000000070110 = .ok (.slotStatus .rx 7) ∧
    decode 0x0000000900030011 = .ok (.markHwOwned .tx 3 0x09) ∧ decode 0x0000000000020111 = .ok (.markHwOwned .rx 2 0) ∧
    decode 0x0000000A00020112 = .ok (.installBuf .rx 2 10) ∧ decode 0x0000000000000012 = .ok (.installBuf .tx 0 0) := by
  decide +kernel

theorem test_decode_paths :
    decode 0x000003E900000020 = .ok (.transmit 1001) ∧ decode 0x0000000000000130 = .ok .rxDrain ∧
    decode 0x0000000000000040 = .ok .irqHandler ∧ decode 0x0000000000100050 = .ok (.ringInitTx 16) ∧
    decode 0x0000000000080150 = .ok (.ringInitRx 8) := by decide +kernel

theorem test_decode_register_reads :
    decode 0x0000000000000060 = .ok .rd32Ctrl ∧ decode 0x0000000000C00060 = .ok .rd32Icr ∧
    decode 0x0000000000D00060 = .ok .rd32Ims ∧ decode 0x0000000001000060 = .ok .rd32Rctl ∧
    decode 0x0000000004000060 = .ok .rd32Tctl ∧ decode 0x0000000028000060 = .ok .rd32Rdbal ∧
    decode 0x0000000028040060 = .ok .rd32Rdbah ∧ decode 0x0000000028080060 = .ok .rd32Rdlen ∧
    decode 0x0000000028100060 = .ok .rd32Rdh ∧ decode 0x0000000028180060 = .ok .rd32Rdt ∧
    decode 0x0000000028200060 = .ok .rd32Rdtr ∧ decode 0x00000000282C0060 = .ok .rd32Radv ∧
    decode 0x0000000038000060 = .ok .rd32Tdbal ∧ decode 0x0000000038040060 = .ok .rd32Tdbah ∧
    decode 0x0000000038080060 = .ok .rd32Tdlen ∧ decode 0x0000000038100060 = .ok .rd32Tdh ∧
    decode 0x0000000038180060 = .ok .rd32Tdt ∧ decode 0x0000000054000060 = .ok .rd32Ral ∧
    decode 0x0000000054040060 = .ok .rd32Rah ∧ decode 0x0000000052000060 = .ok (.rd32Mta 0) ∧
    decode 0x0000000053FC0060 = .ok (.rd32Mta 127) := by decide +kernel

theorem test_decode_register_writes :
    decode 0x0400000000000061 = .ok (.wr32Ctrl 0x04000000) ∧ decode 0xFFFFFFFF00C00061 = .ok (.wr32Icr 0xFFFFFFFF) ∧
    decode 0x0000008000D00061 = .ok (.wr32Ims 0x80) ∧ decode 0x0000000201000061 = .ok (.wr32Rctl 2) ∧
    decode 0x0000000204000061 = .ok (.wr32Tctl 2) ∧ decode 0x8002000028000061 = .ok (.wr32Rdbal 0x80020000) ∧
    decode 0x0000000028040061 = .ok (.wr32Rdbah 0) ∧ decode 0x0000008028080061 = .ok (.wr32Rdlen 128) ∧
    decode 0x0000000028100061 = .ok (.wr32Rdh 0) ∧ decode 0x0000000728180061 = .ok (.wr32Rdt 7) ∧
    decode 0x0000000028200061 = .ok (.wr32Rdtr 0) ∧ decode 0x00000000282C0061 = .ok (.wr32Radv 0) ∧
    decode 0x8001000038000061 = .ok (.wr32Tdbal 0x80010000) ∧ decode 0x0000000038040061 = .ok (.wr32Tdbah 0) ∧
    decode 0x0000010038080061 = .ok (.wr32Tdlen 256) ∧ decode 0x0000000038100061 = .ok (.wr32Tdh 0) ∧
    decode 0x0000000138180061 = .ok (.wr32Tdt 1) ∧ decode 0x1122334454000061 = .ok (.wr32Ral 0x11223344) ∧
    decode 0x0000556654040061 = .ok (.wr32Rah 0x5566) ∧ decode 0x0000000152140061 = .ok (.wr32Mta 5 1) := by decide +kernel

theorem test_decode_device_and_ports :
    decode 0x0000000000000080 = .ok .devTxFetch ∧ decode 0x0000000000000081 = .ok .devTxDone ∧
    decode 0x00000000003C0182 = .ok (.devRxFrame 60) ∧ decode 0x000000000000008F = .ok .hwReset ∧
    decode 0x0000000000000090 = .ok (.alloc 0) ∧ decode 0x0000000100000091 = .ok (.free 1) ∧
    decode 0x0000000305DC0092 = .ok (.append 3 1500) ∧ decode 0x0000000300000093 = .ok (.deliver 3) := by decide +kernel

/-- R113 a to c: no such operation, reserved field, unused field, misaligned and unmapped offset. -/
theorem test_decode_refuses :
    decode 0x00000000000000FF = .error .unknownOp ∧ decode 0x0000000000000201 = .error .reservedField ∧
    decode 0x0000000100000001 = .error .unusedField ∧ decode 0x0000000000000103 = .error .unusedField ∧
    decode 0x0000000038190060 = .error .misalignedOffset ∧ decode 0x0000000000040060 = .error .unmappedOffset ∧
    decode 0x0000000054080061 = .error .unmappedOffset ∧ decodeBytes [1, 0, 0, 0, 0, 0, 0] = .error .wrongLength ∧
    decodeTableWord 64 0x0000000138180061 = some (.wr32Tdt 1) := by decide +kernel

/-! Steps. Expected values are from the examples of the rules cited. -/

/-- R83, R84. -/
theorem test_lock_takes_a_free_lock : got (exec (.lock .tx) base) (fun t => t.txLock == .held (.thread 1)) = true := by decide +kernel
theorem test_lock_is_not_reentrant :
    refusedBy (exec (.lock .tx) { base with txLock := .held (.thread 1) }) .lockReentry = true := by decide +kernel
theorem test_unlock_frees :
    got (exec (.unlock .tx) { base with txLock := .held (.thread 1) }) (fun t => t.txLock == .free) = true := by decide +kernel
theorem test_unlock_by_another_is_refused :
    refusedBy (exec (.unlock .tx) { base with txLock := .held (.thread 2) }) .lockNotHeld = true := by decide +kernel
theorem test_fence_answers_ok : got (exec .fence base) (answered (.thread 1) 0) = true := by decide +kernel

/-- R184: constructed state, `SLOT_STATUS TX, 0 -> 0x01`, `SLOT_STATUS RX, 0 -> 0x00`. -/
theorem test_slot_status :
    got (exec (.slotStatus .tx 0) (locked .tx base)) (answered (.thread 1) 0x0000000100000000) = true ∧
    got (exec (.slotStatus .rx 0) (locked .rx (asAgent .irq base))) (answered .irq 0x0000000000000000) = true := by
  decide +kernel

/-- R184, U21, D25, R76: out of range, without the lock, before construction, and where the ring passes the top. -/
theorem test_slot_status_refused :
    refusedBy (exec (.slotStatus .rx 8) (locked .rx (asAgent .irq base))) .slotOutOfRange = true ∧
    refusedBy (exec (.slotStatus .tx 0) base) .lockNotHeld = true ∧
    refusedBy (exec (.slotStatus .tx 0) (locked .tx { base with txReady := false })) .ringNotConstructed = true ∧
    refusedBy (exec (.slotStatus .tx 1) (locked .tx { base with
      regs := { base.regs with tdbal := 0xFFFFFFF0, tdbah := 0xFFFFFFFF } })) .noMemory = true := by
  decide +kernel

/-- R182: `MARK_HW_OWNED TX, 3, 0x09`. -/
theorem test_mark_hw_owned :
    got (exec (.markHwOwned .tx 3 9) { base with txLock := .held (.thread 1) })
      (fun t => txdCmd 3 t == 9 && descStatus .tx 3 t == 0 && descStatus .tx 2 t == 1) = true := by decide +kernel
theorem test_mark_hw_owned_receive :
    got (exec (.markHwOwned .rx 0 0) { asAgent .irq filled with rxLock := .held .irq })
      (fun t => descStatus .rx 0 t == 0 && descStatus .rx 1 t == 1) = true := by decide +kernel

/-- R182, R75, D25: before construction the registers may name any region, and nothing is written there. -/
theorem test_mark_hw_owned_before_construction :
    refusedBy (exec (.markHwOwned .tx 0 9) (locked .tx { base with
      txReady := false, regs := { base.regs with tdbal := 0x80020000, tdlen := 128 } })) .ringNotConstructed = true := by
  decide +kernel

/-- R183: `rx_buf[2] = b2`; INSTALL_BUF RX, 2, b9 returns b2. -/
theorem test_install_buf :
    got (exec (.installBuf .rx 2 10) { asAgent .irq base with
        rxLock := .held .irq, bufs := [(10, { addr := 0x90004000, len := 0, area := 2048, holder := .caller .irq })] })
      (fun t => t.slotAt .rx 2 == some 10 && t.holderOf 10 == .ring .rx 2 && answered .irq 0x0000000300000000 t) = true := by
  decide +kernel
theorem test_install_buf_elsewhere :
    refusedBy (exec (.installBuf .rx 2 4) { asAgent .irq base with rxLock := .held .irq }) .bufferElsewhere = true := by
  decide +kernel

/-- R200: `TRANSMIT b0 -> OK` in the constructed state. -/
theorem test_transmit_ok :
    got (exec (.transmit 1001) base) (fun t =>
      t.slotAt .tx 0 == some 1001 && descImage .tx 0 t == 0x000000000900000300000000A0000000 &&
        t.regs.tdt == 1 && t.txPending == 1 && t.txLock == .free && answered (.thread 1) 0 t) = true := by decide +kernel

/-- R209, R301: Done clear at the tail. -/
theorem test_transmit_ring_busy :
    got (exec (.transmit 1001) { base with mem := rxCells })
      (fun t => t == { base with mem := rxCells, out := [.result (.thread 1) 1] }) = true := by decide +kernel

/-- R220: two completed slots are delivered in order, re-armed, and the tail follows; the handler goes on at I4. -/
theorem test_rx_drain_delivers_in_order :
    got (exec .rxDrain (draining filled)) (fun t =>
      t.out == [.alloc 0 (some 9), .append 1 60, .deliver 1, .alloc 0 (some 10), .append 2 1500, .deliver 2] &&
        t.regs.rdt == 1 && t.slotAt .rx 0 == some 9 && descPayload .rx 1 t == 0x90004800 &&
        descStatus .rx 1 t == 0 && t.opOf .irq == some (.irqHandler .i4)) = true := by decide +kernel

/-- R223: no replacement, nothing delivered, the slot untouched. U21: no drain outside a handler. -/
theorem test_rx_drain_without_a_replacement :
    got (exec .rxDrain (draining { filled with allocs := [none] })) (fun t =>
      t.out == [.alloc 0 none] && t.regs == filled.regs && t.mem == filled.mem && t.rxBuf == filled.rxBuf) = true ∧
    refusedBy (exec .rxDrain (locked .rx filled)) .drainOutsideHandler = true := by
  decide +kernel

/-- R240: `ICR = 0x80` and completed slots: ICR is 0 after, the lock and `irq_active` as before. -/
theorem test_irq_handler_acknowledges_and_drains :
    got (exec .irqHandler filled) (fun t =>
      t.regs.icr == 0 && t.regs.rdt == 1 && t.rxLock == .free && !t.irqActive && deliveries t.out == [1, 2]) = true := by
  decide +kernel
theorem test_irq_handler_not_twice :
    refusedBy (exec .irqHandler { filled with irqActive := true }) .handlerActive = true := by decide +kernel

/-- R191: `RING_INIT_TX 16` gives `TDLEN = 256`, descriptors with status 0x01. -/
theorem test_ring_init_tx :
    got (exec (.ringInitTx 16) fresh) (fun t =>
      t.regs.tdlen == 256 && descImage .tx 15 t == 0x00000001000000000000000000000000 && t.txReady &&
        t.txBuf == List.replicate 16 none && answered .init 0 t) = true := by decide +kernel

/-- R303: `n = 4` is malformed. R305: where it overlaps a region in use as well, it is refused. -/
theorem test_ring_init_tx_malformed :
    got (exec (.ringInitTx 4) fresh) (fun t => t == { fresh with failed := true, out := [.result .init 3] }) = true ∧
    refusedBy (exec (.ringInitTx 4) { fresh with cfg := { fresh.cfg with txBase := 0xA0000000 }, bufs := [callerBuffer] })
      .ringPlacement = true := by
  decide +kernel

/-- R192: `RING_INIT_RX 8` issues eight ALLOCs and gives `RDLEN = 128`, `RDH = 0`, `RDT = 7`. -/
theorem test_ring_init_rx :
    got (exec (.ringInitRx 8) fresh) (fun t =>
      t.regs.rdlen == 128 && t.regs.rdh == 0 && t.regs.rdt == 7 && t.out.length == 9 && t.rxReady &&
        descImage .rx 7 t == 0x00000000000000000000000090003800 && t.holderOf 8 == .ring .rx 7 &&
        answered .init 0 t) = true := by decide +kernel

/-- R302: an ALLOC that fails. -/
theorem test_ring_init_rx_exhausted :
    got (exec (.ringInitRx 8) { fresh with allocs := [some { handle := 1, addr := 0x90000000 }, none] }) (fun t =>
      t.failed && !t.rxReady && answered .init 2 t) = true := by decide +kernel

/-- R140 to R176: the examples of the read rules. -/
theorem test_reads_of_index_registers :
    got (exec .rd32Tdt { base with regs := { base.regs with tdt := 5 } }) (answered (.thread 1) 0x0000000500000000) = true ∧
    got (exec .rd32Rdt base) (answered (.thread 1) 0x0000000700000000) = true ∧
    got (exec .rd32Tdh base) (answered (.thread 1) 0) = true ∧ got (exec .rd32Rdh base) (answered (.thread 1) 0) = true := by
  decide +kernel
theorem test_reads_of_geometry :
    got (exec .rd32Tdbal base) (answered (.thread 1) 0x8001000000000000) = true ∧
    got (exec .rd32Tdbah base) (answered (.thread 1) 0) = true ∧
    got (exec .rd32Tdlen base) (answered (.thread 1) 0x0000010000000000) = true ∧
    got (exec .rd32Rdbal base) (answered (.thread 1) 0x8002000000000000) = true ∧
    got (exec .rd32Rdbah base) (answered (.thread 1) 0) = true ∧
    got (exec .rd32Rdlen base) (answered (.thread 1) 0x0000008000000000) = true := by decide +kernel
theorem test_reads_of_controls :
    got (exec .rd32Ctrl base) (answered (.thread 1) 0) = true ∧
    got (exec .rd32Ims base) (answered (.thread 1) 0x0000008000000000) = true ∧
    got (exec .rd32Rctl base) (answered (.thread 1) 0x0000000200000000) = true ∧
    got (exec .rd32Tctl base) (answered (.thread 1) 0x0000000200000000) = true ∧
    got (exec .rd32Rdtr base) (answered (.thread 1) 0) = true ∧ got (exec .rd32Radv base) (answered (.thread 1) 0) = true := by
  decide +kernel
theorem test_reads_of_filters :
    got (exec (.rd32Mta 5) { base with regs := { base.regs with mta := base.regs.mta.set 5 7 } })
      (answered (.thread 1) 0x0000000700000000) = true ∧
    got (exec .rd32Ral { base with regs := { base.regs with ral := 3 } }) (answered (.thread 1) 0x0000000300000000) = true ∧
    got (exec .rd32Rah { base with regs := { base.regs with rah := 4 } }) (answered (.thread 1) 0x0000000400000000) = true := by
  decide +kernel

/-- R147. -/
theorem test_read_of_icr_is_refused : refusedBy (exec .rd32Icr base) .icrRead = true := by decide +kernel

/-- R143: `N_TX = 16`, `TDT = 15`, `tx_pending = 15`: `WR32 TDT, 0` gives `TDT = 0`, `tx_pending = 16`. -/
theorem test_write_tdt_wraps :
    got (exec (.wr32Tdt 0) (locked .tx { base with regs := { base.regs with tdt := 15 }, txPending := 15 }))
      (fun t => t.regs.tdt == 0 && t.txPending == 16) = true := by decide +kernel
theorem test_write_tdt_over_commit :
    refusedBy (exec (.wr32Tdt 1) (locked .tx { base with regs := { base.regs with tdt := 15 }, txPending := 15 }))
      .overCommit = true ∧
    refusedBy (exec (.wr32Tdt 1) base) .lockNotHeld = true := by
  decide +kernel

/-- R145: `N_RX = 8`, `RDH = 3`, `RDT = 7`: `WR32 RDT, 0` gives the window `3,4,5,6,7`. -/
theorem test_write_rdt_opens_the_window :
    got (exec (.wr32Rdt 0) (locked .rx (asAgent .irq { base with regs := { base.regs with rdh := 3 } })))
      (fun t => (List.range 8).map (fun i => inWindow i t) == [false, false, false, true, true, true, true, true]) = true := by
  decide +kernel
theorem test_write_rdt_out_of_range : refusedBy (exec (.wr32Rdt 8) (locked .rx (asAgent .irq base))) .tailOutOfRange = true := by decide +kernel

/-- R146, R148, R306, U14. -/
theorem test_write_icr_acknowledges :
    got (exec (.wr32Icr 0xFFFFFFFF) filled) (fun t => irqLine filled && t.regs.icr == 0 && !irqLine t) = true ∧
    got (exec (.wr32Icr 0x80) filled) (fun t => t.regs.icr == 0) = true ∧
    refusedBy (exec (.wr32Icr 1) filled) .reservedBits = true := by decide +kernel
theorem test_write_ims_unmasks :
    got (exec (.wr32Ims 0x80) { asAgent .init base with regs := { base.regs with ims := 0, icr := 0x80 } }) (fun t => irqLine t) = true := by
  decide +kernel

/-- R151 to R165: before construction, and refused after. -/
theorem test_writes_before_construction :
    got (exec (.wr32Tdh 0) fresh) (fun t => t.regs.tdh == 0) = true ∧ got (exec (.wr32Rdh 0) fresh) (fun t => t.regs.rdh == 0) = true ∧
    got (exec (.wr32Tdbal 0x80010000) fresh) (fun t => t.regs.tdbal == 0x80010000) = true ∧
    got (exec (.wr32Tdbah 1) fresh) (fun t => t.regs.tdbah == 1) = true ∧
    got (exec (.wr32Tdlen 256) fresh) (fun t => t.regs.tdlen == 256) = true ∧
    got (exec (.wr32Rdbal 0x80020000) fresh) (fun t => t.regs.rdbal == 0x80020000) = true ∧
    got (exec (.wr32Rdbah 1) fresh) (fun t => t.regs.rdbah == 1) = true ∧
    got (exec (.wr32Rdlen 128) fresh) (fun t => t.regs.rdlen == 128) = true := by decide +kernel
theorem test_writes_after_construction_are_refused :
    refusedBy (exec (.wr32Tdh 0) (asAgent .init base)) .geometryFrozen = true ∧ refusedBy (exec (.wr32Rdh 0) (asAgent .init base)) .geometryFrozen = true ∧
    refusedBy (exec (.wr32Tdbal 0) (asAgent .init base)) .geometryFrozen = true ∧ refusedBy (exec (.wr32Tdbah 0) (asAgent .init base)) .geometryFrozen = true ∧
    refusedBy (exec (.wr32Tdlen 256) (asAgent .init base)) .geometryFrozen = true ∧ refusedBy (exec (.wr32Rdbal 0) (asAgent .init base)) .geometryFrozen = true ∧
    refusedBy (exec (.wr32Rdbah 0) (asAgent .init base)) .geometryFrozen = true ∧ refusedBy (exec (.wr32Rdlen 128) (asAgent .init base)) .geometryFrozen = true := by
  decide +kernel

/-- R167 to R175. -/
theorem test_delays_and_enables :
    got (exec (.wr32Rdtr 0) (asAgent .init base)) (fun t => t.regs.rdtr == 0) = true ∧ got (exec (.wr32Radv 0) (asAgent .init base)) (fun t => t.regs.radv == 0) = true ∧
    got (exec (.wr32Rctl 0) (asAgent .init base)) (fun t => t.regs.rctl == 0) = true ∧ got (exec (.wr32Tctl 2) (asAgent .init base)) (fun t => t.regs.tctl == 2) = true := by
  decide +kernel
theorem test_enables_before_construction_are_refused :
    refusedBy (exec (.wr32Rctl 2) fresh) .enableTooEarly = true ∧ refusedBy (exec (.wr32Tctl 2) fresh) .enableTooEarly = true ∧
    refusedBy (exec (.wr32Rdtr 1) (asAgent .init base)) .delayNonZero = true ∧ refusedBy (exec (.wr32Radv 1) (asAgent .init base)) .delayNonZero = true := by decide +kernel

/-- R171, R331. -/
theorem test_write_ctrl_resets_the_block :
    got (exec (.wr32Ctrl 0x04000000) (asAgent .init base)) (fun t =>
      t.regs.tdlen == 0 && t.regs.rdt == 0 && t.regs.ims == 0 && !t.txReady && !t.rxReady && t.mem == base.mem) = true := by
  decide +kernel
theorem test_write_ctrl_with_a_lock_held :
    refusedBy (exec (.wr32Ctrl 0x04000000) { asAgent .init base with txLock := .held (.thread 2) }) .resetTooEarly = true := by decide +kernel

/-- R177. -/
theorem test_write_filters :
    got (exec (.wr32Mta 127 9) (asAgent .init base)) (fun t => t.regs.mta[127] == 9 && t.regs.mta[126] == 0) = true ∧
    got (exec (.wr32Ral 3) (asAgent .init base)) (fun t => t.regs.ral == 3) = true ∧ got (exec (.wr32Rah 4) (asAgent .init base)) (fun t => t.regs.rah == 4) = true := by
  decide +kernel

/-- R251: DEV_TX_FETCH latches slot 0 with `l = payload_length(b0)`. -/
theorem test_dev_tx_fetch : got (exec .devTxFetch enqueued) (fun t => t.txInflight == some latched) = true := by decide +kernel
theorem test_dev_tx_fetch_refused :
    refusedBy (exec .devTxFetch { enqueued with mem := Memory.write enqueued.mem 0x8001000B 8 }) .badDescriptor = true ∧
    refusedBy (exec .devTxFetch { enqueued with mem := Memory.writeBytes enqueued.mem 0x80010000 (List.replicate 8 0xFF) })
      .noMemory = true := by
  decide +kernel

/-- R252: DEV_TX_DONE gives `TXD(0).status = 0x01`, `TDH = 1`, `tx_pending = 0`. -/
theorem test_dev_tx_done :
    got (exec .devTxDone inFlight) (fun t =>
      descStatus .tx 0 t == 1 && t.regs.tdh == 1 && t.txPending == 0 && t.txInflight == none &&
        t.out.head? == some (.wireTx [0, 0, 0])) = true := by decide +kernel

/-- U2: with RS clear the slot completes without Done. -/
theorem test_dev_tx_done_without_report :
    got (exec .devTxDone { inFlight with txInflight := some { latched with cmd := 1 } }) (fun t =>
      descStatus .tx 0 t == 0 && t.regs.tdh == 1) = true := by decide +kernel

/-- R253: a frame into slot 0: payload, length, Done, `RDH = 1`, `ICR = 0x80`, `irq = 1`. -/
theorem test_dev_rx_frame :
    got (exec (.devRxFrame 3)
        { asAgent .dev base with frames := [{ data := [10, 11, 12], fields := [0, 0, 0, 0, 0, 0] }] }) (fun t =>
      Memory.readBytes t.mem 0x90000000 4 == [10, 11, 12, 0] && descLength .rx 0 t == 3 && descStatus .rx 0 t == 1 &&
        t.regs.rdh == 1 && t.regs.icr == 0x80 && irqLine t) = true := by decide +kernel

/-- R253: with the window empty the frame is dropped. -/
theorem test_dev_rx_frame_dropped :
    got (exec (.devRxFrame 3) { asAgent .dev base with regs := { base.regs with rdh := 7 } }) (fun t =>
      t.mem == base.mem && t.regs.rdh == 7 && t.regs.icr == 0) = true := by decide +kernel

/-- R330: even from the Failed state. -/
theorem test_hw_reset :
    got (exec .hwReset { asAgent .env base with failed := true }) (fun t =>
      !t.failed && !t.txReady && t.regs.tdlen == 0 && t.bufs == []) = true := by decide +kernel
theorem test_hw_reset_by_a_thread : refusedBy (exec .hwReset base) .wrongContext = true := by decide +kernel

/-- R186: `ALLOC -> b8`, and failure. -/
theorem test_alloc :
    got (exec (.alloc 0) filled) (fun t =>
      t.bufOf 9 == some { addr := 0x90004000, len := 0, area := 2048, holder := .caller .irq } &&
        answered .irq 0x0000000900000000 t) = true := by decide +kernel
theorem test_alloc_fails :
    got (exec (.alloc 0) { filled with allocs := [none] }) (answered .irq 2) = true ∧
    refusedBy (exec (.alloc 0) { filled with allocs := [some { handle := 9, addr := 0x900037FF }] }) .grantInadmissible = true := by
  decide +kernel

/-- R187 to R189. -/
theorem test_free : got (exec (.free 1001) base) (fun t => t.holderOf 1001 == .pool) = true := by decide +kernel
theorem test_double_free : faultedBy (exec (.free 77) base) .poolBuffer = true := by decide +kernel
theorem test_append : got (exec (.append 3 1500) (asAgent .irq base)) (fun t => t.payloadLength 3 == 1500) = true := by decide +kernel
theorem test_append_beyond_a_buffer : refusedBy (exec (.append 3 2049) (asAgent .irq base)) .appendLength = true := by decide +kernel
theorem test_deliver : got (exec (.deliver 3) (asAgent .irq base)) (fun t => t.holderOf 3 == .upstream) = true := by decide +kernel

/-- U20, R315, R48: admission. -/
theorem test_admission :
    refusedBy (exec .fence { base with failed := true }) .failedState = true ∧
    refusedBy (exec (.transmit 1001) (asAgent .irq base)) .wrongContext = true ∧
    refusedBy (exec (.append 3 1) base) .wrongContext = true ∧ refusedBy (exec (.deliver 3) base) .wrongContext = true ∧
    refusedBy (exec (.free 3) filled) .wrongContext = true ∧ refusedBy (exec .fence (asAgent .init base)) .wrongContext = true ∧
    refusedBy (exec (.wr32Ims 0x80) base) .wrongContext = true ∧ refusedBy (exec (.lock .rx) base) .wrongContext = true ∧
    refusedBy (exec .fence { base with ops := [(5, .lockWait .tx)] }) .agentBusy = true := by decide +kernel

/-! Witnesses: for each claim with hypotheses, states and operands that meet all of them together, clause by
clause at a boundary value. -/

/-- `base` with T1 in a TRANSMIT of `b1000` at a phase. -/
def inTransmit (p : TxPhase) (s : State) : State :=
  { s with txLock := .held (.thread 1), ops := [(5, .transmit { phase := p, b := 1001, t := 0, st := 1, old := none })] }

/-- A drain's context at a phase, slot 0 next, `b8` the replacement. -/
def drainAt (p : RxPhase) : RxCtx := { phase := p, r := 7, next := 0, st := 1, nb := some 9, len := 60, cur := some 1 }

/-- `filled` with a handler's drain in progress and `b8` allocated. -/
def inDrain (p : RxPhase) : State :=
  { filled with
    rxLock := .held .irq, ops := [(0, .irqHandler (.i3 (drainAt p)))]
    bufs := (List.range 8).map rxBuffer ++
      [(9, { addr := 0x90004000, len := 0, area := 2048, holder := .caller .irq }), callerBuffer] }

theorem witness_decode : decode 0xFFFFFFFF00C00061 = .ok (.wr32Icr 0xFFFFFFFF) ∧ decode 0x8F = .ok .hwReset := by decide +kernel

theorem witness_registers_selected_by_offset :
    (0x0000 : Idx) = Reg.offset .ctrl ∧ (0x53FC : Idx) = Reg.offset (.mta 127) ∧
    (∀ r : Reg, (0x5408 : Idx) ≠ r.offset) ∧ ∀ r : Reg, (0x51FC : Idx) ≠ r.offset := by
  refine ⟨by decide +kernel, by decide +kernel, fun r => ?_, fun r => ?_⟩ <;> cases r with
  | mta k => revert k; decide +kernel
  | _ => decide +kernel

theorem witness_words_that_spell_no_operation :
    (0x0000000000008001 : OpWord).extractLsb' 9 7 ≠ 0 ∧
    ((0x0000000000000004 : OpWord).extractLsb' 0 8).toNat ∉
      [0x01, 0x02, 0x03, 0x10, 0x11, 0x12, 0x20, 0x30, 0x40, 0x50, 0x60, 0x61, 0x80, 0x81, 0x82, 0x8F, 0x90, 0x91,
        0x92, 0x93] ∧
    (0x0000000054080061 : OpWord).extractLsb' 0 8 = 0x61 ∧
    ∀ r : Reg, (0x0000000054080061 : OpWord).extractLsb' 16 16 ≠ r.offset := by
  refine ⟨by decide +kernel, by decide +kernel, by decide +kernel, fun r => ?_⟩
  cases r with
  | mta k => revert k; decide +kernel
  | _ => decide +kernel

theorem witness_step_runs :
    ({ base with inputs := [.issue .irq 0x40] }).inputs = .issue .irq 0x40 :: [] ∧ decode 0x40 = .ok .irqHandler ∧
    decode 0xFF = .error .unknownOp ∧
    ({ base with inputs := [.start (.thread 1) 0x000003E900000020, .proceed .irq] }).inputs =
      .start (.thread 1) 0x000003E900000020 :: [.proceed .irq] ∧
    ({ base with inputs := [.prepare (.thread 1) 1001 [1]] }).inputs = .prepare (.thread 1) 1001 [1] :: [] ∧
    ({ base with inputs := [.mutate (.thread 1) .tx .payload 0 1 [7]] }).inputs =
      .mutate (.thread 1) .tx .payload 0 1 [7] :: [] ∧
    base.inputs = [] := by decide +kernel

theorem witness_refusals :
    WellFormed (.wr32Rctl 1) = false ∧ ({ base with failed := true }).failed = true ∧ Instr.fence ≠ .hwReset ∧
    (classOf .rxDrain base).allows (.thread 1) = false ∧ (classOf (.transmit 1) base).allows .irq = false ∧
    (classOf (.wr32Tdt 0) base).allows .init = false ∧ (classOf (.wr32Tdt 0) fresh).allows (.thread 1) = false ∧
    base.opOf base.issuer ≠ some (.irqHandler (.i3 rxStartCtx)) ∧
    (({ base with ops := [(5, .lockWait .tx)] }).opOf (.thread 1)).isSome = true := by decide +kernel

theorem witness_can_issue :
    CanIssue .host base ∧ CanIssue .path base ∧ CanIssue .path filled ∧ CanIssue .thread base ∧ CanIssue .irq filled ∧ CanIssue .dev enqueued ∧
    CanIssue .init fresh ∧ CanIssue .host fresh ∧ CanIssue .host filled ∧ CanIssue .init (asAgent .init base) ∧
    CanIssue (ringClass .tx) base ∧ CanIssue (ringClass .rx) filled ∧ CanIssue (tailClass .tx base) base ∧
    CanIssue (tailClass .tx fresh) fresh ∧ CanIssue (tailClass .rx filled) filled := by decide +kernel

theorem witness_head_and_geometry_writes :
    CanIssue .init (asAgent .init base) ∧ base.txReady = true ∧ base.rxReady = true ∧ CanIssue .init fresh ∧
    fresh.txReady = false ∧
    fresh.rxReady = false ∧ (0xFFFFFFF0 : Word).extractLsb' 0 4 = 0 ∧ (0x8 : Word).extractLsb' 0 4 ≠ 0 ∧
    ((0x000FFF80 : Word).extractLsb' 20 12 = 0 ∧ (0x000FFF80 : Word).extractLsb' 0 7 = 0) ∧
    (0x00100000 : Word).extractLsb' 20 12 ≠ 0 ∧ (0x40 : Word).extractLsb' 0 7 ≠ 0 := by decide +kernel

theorem witness_enables_and_controls :
    CanIssue .init (asAgent .init base) ∧ base.rxReady = true ∧ base.regs.rdtr = 0 ∧ base.regs.radv = 0 ∧ base.txReady = true ∧
    base.ops = [] ∧ base.txLock = .free ∧ base.rxLock = .free ∧
    CanIssue .init { asAgent .init base with rxLock := .held .irq } ∧ ({ base with rxLock := .held .irq }).rxLock ≠ .free ∧
    (0x08000000 : Word) ≠ 0 ∧ (0x08000000 : Word) ≠ 0x04000000 := by decide +kernel

theorem witness_tail_writes :
    CanIssue (tailClass .tx fresh) fresh ∧ fresh.txReady = false ∧ CanIssue (tailClass .tx base) (locked .tx base) ∧
    base.txReady = true ∧ (locked .tx base).txLock = .held base.issuer ∧ base.txLock ≠ .held base.issuer ∧
    CanIssue (tailClass .rx base) (locked .rx (asAgent .irq base)) ∧ CanIssue (tailClass .rx fresh) fresh ∧
    ((15 : Word).extractLsb' 0 16).toNat < ringSize .tx base ∧ ringSize .tx base ≤ ((16 : Word).extractLsb' 0 16).toNat ∧
    (0x10000 : Word).extractLsb' 16 16 ≠ 0 ∧ ((7 : Word).extractLsb' 0 16).toNat < ringSize .rx base ∧
    ringSize .rx base ≤ ((8 : Word).extractLsb' 0 16).toNat ∧
    ringSize .tx base < ({ base with txPending := 16 }).txPending + ringDist 0 1 16 ∧
    got (exec (.wr32Tdt 15) (locked .tx base)) (fun t => inHwset 14 t && !inHwset 15 t) = true ∧
    (0x80 : Word) &&& 0xFFFFFF7F = 0 ∧ (0xFFFFFFFE : Word) &&& 0xFFFFFF7F ≠ 0 ∧ (0xFFFFFFFE : Word) ≠ 0xFFFFFFFF := by
  decide +kernel

theorem witness_synchronisation :
    base.lockOf .tx = .free ∧ ({ base with txLock := .held (.thread 1) }).lockOf .tx = .held base.issuer ∧
    CanIssue (ringClass .tx) { base with txLock := .held (.thread 1) } ∧
    CanIssue (ringClass .tx) { base with txLock := .held (.thread 2) } ∧
    ({ base with txLock := .held (.thread 2) }).lockOf .tx = .held (.thread 2) ∧ (.thread 2 : Agent) ≠ base.issuer ∧
    CanIssue .path base ∧ CanIssue (ringClass .rx) filled ∧ ({ base with ops := [(5, .lockWait .rx)] }).failed = false ∧
    ({ base with ops := [(5, .lockWait .rx)] }).opOf base.issuer = some (.lockWait .rx) ∧
    ({ base with ops := [(5, .lockWait .rx)] }).lockOf .rx = .free ∧
    ({ base with ops := [(5, .lockWait .rx)], rxLock := .held .irq }).opOf base.issuer = some (.lockWait .rx) ∧
    ({ base with ops := [(5, .lockWait .rx)], rxLock := .held .irq }).lockOf .rx = .held .irq := by decide +kernel

theorem witness_ring_primitives :
    (15 : Idx).toNat < ringSize .tx base ∧ (7 : Idx).toNat < ringSize .rx base ∧ ¬ (16 : Idx).toNat < ringSize .tx base ∧
    CanIssue (ringClass .rx) { filled with rxLock := .held .irq } ∧ CanIssue (ringClass .tx) (locked .tx base) ∧
    ringInMemory .tx base = true ∧ ringInMemory .rx base = true ∧ ({ filled with rxLock := .held .irq }).lockOf .rx = .held .irq ∧
    ringReady .tx base = true ∧ ringReady .rx filled = true ∧ ringReady .rx fresh = false ∧ (0x08 : Byte) &&& ~~~0x09 = 0 ∧
    (0x0B : Byte) &&& ~~~0x09 ≠ 0 ∧ inOtherSlot 10 .rx 7 filled = false ∧ inOtherSlot 8 .rx 7 filled = false ∧
    inOtherSlot 8 .rx 6 filled = true ∧
    filled.bufOf 20 = none ∧ inOtherSlot 20 .rx 7 filled = false ∧
    placeable filled.cfg (runAt 0xB0000000 filled.cfg.rxBufBytes) (liveRegions filled) = true ∧
    filled.bufOf 8 = some { addr := 0x90003800, len := 0, area := 2048, holder := .ring .rx 7 } := by decide +kernel

/-- A platform with no memory to spare. -/
def noSpare : State := { locked .rx filled with cfg := { filled.cfg with memory := [] } }

theorem witness_install_without_room :
    (∀ a, placeable noSpare.cfg (runAt a noSpare.cfg.rxBufBytes) (liveRegions noSpare) = false) ∧
    CanIssue (ringClass .rx) noSpare ∧ noSpare.lockOf .rx = .held noSpare.issuer ∧ (7 : Idx).toNat < ringSize .rx noSpare ∧
    ringReady .rx noSpare = true ∧ noSpare.bufOf 20 = none ∧ inOtherSlot 20 .rx 7 noSpare = false :=
  ⟨fun a => by simp [placeable, inMemory, noSpare], by decide +kernel⟩

theorem witness_alloc :
    CanIssue .host filled ∧
    filled.allocs = some { handle := 9, addr := 0x90004000 } :: [some { handle := 10, addr := 0x90004800 }] ∧
    filled.bufOf 9 = none ∧ placeable filled.cfg (runAt 0x90004000 2048) (liveRegions filled) = true ∧
    CanIssue .host { filled with allocs := [none] } ∧ ({ filled with allocs := [none] }).allocs = none :: [] ∧
    placeable filled.cfg (runAt 0x900037FF 2048) (liveRegions filled) = false ∧ base.allocs = [] ∧
    placeable filled.cfg (runAt 0xFFFFFFFFFFFFF801 2048) (liveRegions filled) = false ∧
    placeable filled.cfg (runAt 0xFFFFFFFFFFFFF800 2048) (liveRegions filled) = true := by decide +kernel

theorem witness_ports :
    CanIssue .thread base ∧ CanIssue .irq filled ∧ (1001 : Handle) ≠ 0 ∧ base.bufOf 1001 = some callerBuffer.2 ∧
    base.bufOf 77 = none ∧ filled.bufOf 1001 = some callerBuffer.2 ∧ filled.bufOf 77 = none ∧
    (2048 : Idx).toNat ≤ base.cfg.rxBufBytes ∧ base.cfg.rxBufBytes < (2049 : Idx).toNat := by decide +kernel

theorem witness_malformed_geometry :
    CanIssue .init fresh ∧ fresh.txReady = false ∧ fresh.rxReady = false ∧ CanIssue .init (asAgent .init base) ∧
    (asAgent .init base).txReady = true ∧ (asAgent .init base).rxReady = true ∧ (0 : Idx).toNat = 0 ∧
    65528 < (65529 : Idx).toNat ∧ (16 * (65527 : Idx).toNat) % 128 ≠ 0 ∧ fresh.cfg.txBase.toNat % 16 = 0 ∧
    fresh.cfg.rxBase.toNat % 16 = 0 ∧ (0x80010008 : Addr).toNat % 16 ≠ 0 ∧
    placeable fresh.cfg (runAt fresh.cfg.txBase (16 * (65529 : Idx).toNat)) (liveRegions fresh) = true ∧
    placeable fresh.cfg (runAt fresh.cfg.rxBase (16 * (0 : Idx).toNat)) (liveRegions fresh) = true ∧
    placeable fresh.cfg (runAt fresh.cfg.txBase (16 * (4097 : Idx).toNat)) (liveRegions base) = false := by decide +kernel

theorem witness_transmit_ring_constructed :
    CanIssue .init fresh ∧ fresh.txReady = false ∧ 0 < (65528 : Idx).toNat ∧ (65528 : Idx).toNat ≤ 65528 ∧
    (65528 : Idx).toNat % 8 = 0 ∧ fresh.cfg.txBase.toNat % 16 = 0 ∧
    placeable fresh.cfg (runAt fresh.cfg.txBase (16 * (65528 : Idx).toNat)) (liveRegions fresh) = true := by decide +kernel

/-- The grants `fresh` holds. -/
def grants (n : Nat) : List Grant :=
  (List.range n).map fun k => { handle := BitVec.ofNat 32 (k + 1), addr := BitVec.ofNat 64 (0x90000000 + 0x800 * k) }

theorem witness_receive_ring_constructed :
    CanIssue .init fresh ∧ fresh.rxReady = false ∧ 0 < (8 : Idx).toNat ∧ (8 : Idx).toNat ≤ 65528 ∧
    (8 : Idx).toNat % 8 = 0 ∧ fresh.cfg.rxBase.toNat % 16 = 0 ∧
    placeable fresh.cfg (runAt fresh.cfg.rxBase (16 * (8 : Idx).toNat)) (liveRegions fresh) = true ∧
    (grants 8).length = (8 : Idx).toNat ∧ fresh.allocs = (grants 8).map some ++ [] ∧
    grantsOk fresh.cfg fresh.bufs
      (runAt fresh.cfg.rxBase (16 * (8 : Idx).toNat) :: liveRegions fresh) (grants 8) = true := by
  decide +kernel

theorem witness_allocation_exhausted :
    CanIssue .init { fresh with allocs := (grants 7).map some ++ [none] } ∧ (grants 7).length < (8 : Idx).toNat ∧
    ({ fresh with allocs := (grants 7).map some ++ [none] }).allocs = (grants 7).map some ++ none :: [] ∧
    ({ fresh with allocs := (grants 7).map some ++ [none] }).rxReady = false ∧ (8 : Idx).toNat ≤ 65528 ∧
    (8 : Idx).toNat % 8 = 0 ∧ fresh.cfg.rxBase.toNat % 16 = 0 ∧
    placeable fresh.cfg (runAt fresh.cfg.rxBase (16 * (8 : Idx).toNat))
      (liveRegions { fresh with allocs := (grants 7).map some ++ [none] }) = true ∧
    grantsOk fresh.cfg fresh.bufs
      (runAt fresh.cfg.rxBase (16 * (8 : Idx).toNat) ::
        liveRegions { fresh with allocs := (grants 7).map some ++ [none] }) (grants 7) = true := by decide +kernel

theorem witness_transmit_phases :
    (inTransmit .t1 base).failed = false ∧
    (inTransmit .t1 base).opOf base.issuer =
      some (.transmit { phase := .t1, b := 1001, t := 0, st := 1, old := none }) ∧
    ({ inTransmit .t1 base with txLock := .free }).txLock = .free ∧
    ({ inTransmit .t1 base with txLock := .held (.thread 2) }).txLock = .held (.thread 2) ∧
    (inTransmit .t9 base).txLock = .held base.issuer ∧ (inTransmit .t4 base).slotAt .tx 0 = none ∧
    (inTransmit .t4 { base with txBuf := some 1001 :: List.replicate 15 none }).slotAt .tx 0 = some 1001 ∧
    (inTransmit .t5 base).txLock = .held base.issuer ∧ (inTransmit .t5 base).txReady = true ∧ ringInMemory .tx (inTransmit .t5 base) = true ∧ (0 : Idx).toNat < ringSize .tx (inTransmit .t5 base) ∧
    (inTransmit .t6 base).bufOf 1001 = some callerBuffer.2 ∧ callerBuffer.2.len ≤ 0xFFFF ∧
    callerBuffer.2.holder = .caller base.issuer ∧ 1 ≤ callerBuffer.2.len ∧
    (inTransmit .t6 { base with bufs := [] }).holderOf 1001 ≠ .caller base.issuer ∧
    inOtherSlot 1001 .tx 0 (inTransmit .t6 base) = false ∧ (inTransmit .t7 base).txReady = true ∧
    1 < ringSize .tx (inTransmit .t7 base) ∧ (0 : Idx).toNat = tailIndex .tx (inTransmit .t7 base) ∧
    (inTransmit .t7 { base with txPending := 15 }).txPending < ringSize .tx (inTransmit .t7 base) := by decide +kernel

theorem witness_transmit :
    (∀ old, base.slotAt .tx (tailIndex .tx base) = some old → old ≠ 1001 ∧ base.bufOf old ≠ none) ∧
    CanIssue .thread base ∧ base.txReady = true ∧ base.txLock = .free ∧ 1 < ringSize .tx base ∧
    ringInMemory .tx base = true ∧ tailIndex .tx base < ringSize .tx base ∧ base.txPending < ringSize .tx base ∧
    (1001 : Handle) ≠ 0 ∧ base.bufOf 1001 = some callerBuffer.2 ∧ callerBuffer.2.holder = .caller base.issuer ∧
    1 ≤ callerBuffer.2.len ∧ callerBuffer.2.len ≤ 0xFFFF ∧ ddSet (descStatus .tx (tailIndex .tx base) base) = true ∧
    inOtherSlot 1001 .tx (tailIndex .tx base) base = false ∧ base.holderOf 1001 = .caller base.issuer ∧
    base.payloadLength 1001 = 3 := by
  have empty : base.slotAt .tx (tailIndex .tx base) = none := by decide +kernel
  exact ⟨fun _ h => (nomatch empty.symm.trans h), by decide +kernel⟩

theorem witness_transmit_busy_or_waiting :
    CanIssue .thread { base with mem := rxCells } ∧
    ddSet (descStatus .tx (tailIndex .tx base) { base with mem := rxCells }) = false ∧
    CanIssue .thread { base with txLock := .held (.thread 2) } ∧
    ({ base with txLock := .held (.thread 2) }).txLock = .held (.thread 2) ∧ (.thread 2 : Agent) ≠ base.issuer ∧
    base.holderOf 1 ≠ .caller base.issuer ∧ fresh.txReady = false := by decide +kernel

/-- A state with nothing in flight is legal on the transmit side when its indices are. -/
theorem tx_legal_of_no_flight {s : State} (hn : s.txInflight = none)
    (h : (s.txReady = true → 8 ≤ ringSize .tx s ∧ headIndex .tx s < ringSize .tx s ∧ s.txPending ≤ ringSize .tx s
        ∧ tailIndex .tx s = (headIndex .tx s + s.txPending) % ringSize .tx s)
      ∧ (s.txReady = false → s.txPending = 0)) : TxLegal s :=
  ⟨h.1, fun e => ⟨h.2 e, hn⟩, fun _ e => (nomatch hn.symm.trans e)⟩

/-- What the slots of the transmit ring must show for exactness. -/
def SlotsExact (s : State) : Prop :=
  (∀ i, i < ringSize .tx s → ddSet (descStatus .tx i s) = !inHwset i s) ∧
  (∀ i, i < ringSize .tx s → inHwset i s = true → txdCmd i s = cmdRsEop) ∧
  ∀ i, i < ringSize .tx s → inHwset i s = true → descLength .tx i s ≠ 0

theorem base_slots_exact : SlotsExact base := by unfold SlotsExact; decide +kernel
theorem in_flight_slots_exact : SlotsExact inFlight := by unfold SlotsExact; decide +kernel

theorem base_tx_legal : TxLegal base := tx_legal_of_no_flight rfl (by decide +kernel)
theorem enqueued_tx_legal : TxLegal enqueued := tx_legal_of_no_flight rfl (by decide +kernel)

/-- The transmit side of `base` and of `inFlight` is legal and exact. -/
theorem witness_transmit_legal_and_exact :
    TxLegal base ∧ TxExact base ∧ base.txReady = true ∧ TxLegal inFlight ∧ TxExact inFlight := by
  have ⟨d, c, l⟩ := base_slots_exact
  have ⟨d', c', l'⟩ := in_flight_slots_exact
  have ring := enqueued_tx_legal.ring
  refine ⟨base_tx_legal, ⟨d, c, l, fun _ e => (nomatch e)⟩, rfl, ⟨ring, fun e => (nomatch e), ?_⟩, ⟨d', c', l', ?_⟩⟩
  · rintro f ⟨⟩; decide +kernel
  · rintro f ⟨⟩; decide +kernel

theorem witness_transmit_steps :
    got (exec (.transmit 1001) base) (fun t => t.txPending == 1) = true ∧
    got (exec .devTxFetch enqueued) (fun t => t.txPending == 1) = true ∧
    got (exec .devTxDone inFlight) (fun t => t.txPending == 0) = true := by decide +kernel

theorem witness_slot_life_cycle :
    got (proceed (inTransmit .t3 base)) (fun t => slotState .tx 0 t == .softwareFree) = true ∧
    ddSet (descStatus .tx 0 (inTransmit .t3 base)) = true ∧ inHwset 0 (inTransmit .t3 base) = false ∧
    got (proceed (inTransmit .t7 base)) (fun t => slotState .tx 0 t == .hardwareOwned) = true ∧
    got (exec .devTxDone inFlight) (fun t => slotState .tx 0 t == .completed) = true ∧
    enSet inFlight.regs.tctl = true ∧ inFlight.ops.any (fun e => opHasTx 0 e.2) = false ∧
    got (proceed (inTransmit .t7 base)) (fun _ => true) = true := by decide +kernel

theorem witness_receive_slot_life_cycle :
    got (proceed (inDrain .d2)) (fun t => slotState .rx 0 t == .softwareFree) = true ∧
    ddSet (descStatus .rx 0 (inDrain .d2)) = true ∧
    got (proceed { inDrain .d3 with allocs := [none] }) (fun t => slotState .rx 0 t == .completed) = true ∧
    (inDrain .d3).ops = [(agentKey .irq, .irqHandler (.i3 (drainAt .d3)))] ∧
    allocHandle [] { inDrain .d3 with allocs := [none] } = none ∧
    got (proceed (inDrain .d6)) (fun t => slotState .rx 0 t == .hardwareOwned) = true ∧
    got (proceed (inDrain .d7)) (fun t => inWindow 7 t && !inWindow 0 t) = true ∧
    (drainAt .d7).next.toNat = ringNext (tailIndex .rx filled) (ringSize .rx filled) ∧
    (drainAt .d7).next.toNat ≠ headIndex .rx filled ∧ (inDrain .d7).rxReady = true ∧
    got (exec (.devRxFrame 1)
        { asAgent .dev base with frames := [{ data := [10], fields := [0, 0, 0, 0, 0, 0] }] })
      (fun t => slotState .rx 0 t == .completed) = true ∧
    slotState .rx 0 base = .hardwareOwned ∧ ddSet (descStatus .rx 0 base) = false := by decide +kernel

theorem witness_receive_legal_in_drain : RxLegal (inDrain .d7) := ⟨by decide +kernel⟩

theorem witness_caller_prepares :
    base.holderOf 1 ≠ .caller base.issuer ∧ base.opOf base.issuer = none ∧
    (inTransmit .t2 base).opOf base.issuer ≠ none ∧ base.bufOf 1001 = some callerBuffer.2 ∧
    callerBuffer.2.holder = .caller base.issuer ∧ callerBuffer.2.area < (List.replicate 2049 (0 : Byte)).length ∧
    (List.replicate 2048 (0 : Byte)).length ≤ callerBuffer.2.area := by decide +kernel

/-- R87, U7: what the caller overwrites before the fetch is what the device sends. -/
theorem test_mutate_before_the_fetch :
    got (andThen (mutate .tx .payload 0 1 [7] enqueued) (exec .devTxFetch))
      (fun t => t.txInflight == some { latched with bytes := [0, 7, 0] }) = true ∧
    refusedBy (mutate .tx .descriptor 1 0 [7] enqueued) .notCommitted = true ∧
    got (mutate .rx .payload 0 0 [7] base) (fun t => t.byteAt 0x90000000 == 7) = true ∧
    refusedBy (mutate .rx .payload 7 0 [7] base) .notCommitted = true := by decide +kernel

theorem witness_software_overwrites :
    (GivenToHardware .tx 0 enqueued ∧ GivenToHardware .rx 6 base ∧ ¬ GivenToHardware .rx 7 base ∧
      ¬ GivenToHardware .tx 1 enqueued) ∧
    ringReady .tx enqueued = true ∧ 1 < ringSize .tx enqueued ∧ ringReady .rx base = true ∧ 7 < ringSize .rx base ∧
    15 + ([7] : List Byte).length ≤ 16 ∧ enqueued.slotAt .tx 0 = some 1001 ∧
    enqueued.bufOf 1001 = some { addr := 0xA0000000, len := 3, area := 2048, holder := .ring .tx 0 } ∧
    2047 + ([7] : List Byte).length ≤ 2048 := by
  unfold GivenToHardware
  decide +kernel

theorem witness_drain_phases :
    (inDrain .d1).failed = false ∧ (inDrain .d1).opOf .irq = some (.irqHandler (.i3 (drainAt .d1))) ∧
    badGrant [] { inDrain .d3 with allocs := [some { handle := 12, addr := 0x90005000 }] } = false ∧
    allocHandle [] { inDrain .d3 with allocs := [some { handle := 12, addr := 0x90005000 }] } = some 12 ∧
    badGrant [] { inDrain .d3 with allocs := [none] } = false ∧ badGrant [] (inDrain .d3) = true ∧
    allocHandle [] { inDrain .d3 with allocs := [none] } = none ∧
    (inDrain .d4).slotAt .rx 0 = some 1 ∧ ({ inDrain .d4 with rxBuf := [none] }).slotAt .rx 0 = none ∧
    (inDrain .d4).bufOf 1 = some (rxBuffer 0).2 ∧ (descLength .rx 0 (inDrain .d4)).toNat ≤ (inDrain .d4).cfg.rxBufBytes ∧
    (drainAt .d5).cur = some 1 ∧ (drainAt .d6).nb = some 9 ∧
    (inDrain .d6).bufOf 9 = some { addr := 0x90004000, len := 0, area := 2048, holder := .caller .irq } ∧
    (inDrain .d6).rxLock = .held .irq ∧ (0 : Idx).toNat < ringSize .rx filled ∧ (inDrain .d6).rxReady = true ∧
    inOtherSlot 9 .rx 0 (inDrain .d6) = false := by decide +kernel

/-- A handler at the head of its drain, from the four facts that say so. -/
theorem at_drain {s : State}
    (h : s.failed = false ∧ s.issuer = .irq ∧ s.opOf s.issuer = some (.irqHandler (.i3 rxStartCtx)) ∧
      s.rxLock = .held s.issuer) : AtDrain s := ⟨h.1, h.2.1, h.2.2.1, h.2.2.2⟩

theorem witness_drain_exits :
    (AtDrain (draining base) ∧ AtDrain (draining { filled with allocs := [none] }) ∧ ¬ AtDrain filled) ∧
    (draining base).rxReady = true ∧ 0 < ringSize .rx (draining base) ∧
    ddSet (descStatus .rx (ringNext (tailIndex .rx base) (ringSize .rx base)) (draining base)) = false ∧
    ddSet (descStatus .rx (ringNext (tailIndex .rx filled) (ringSize .rx filled)) (draining filled)) = true ∧
    (draining { filled with allocs := [none] }).allocs = none :: [] := by
  have free : filled.rxLock ≠ .held filled.issuer := by decide +kernel
  exact ⟨⟨at_drain (by decide +kernel), at_drain (by decide +kernel), fun h => free h.lock⟩, by decide +kernel⟩

theorem filled_rx_exact : RxExact (draining filled) := by unfold RxExact; decide +kernel
theorem base_rx_exact : RxExact (asAgent .dev base) := by unfold RxExact; decide +kernel

theorem witness_receive_legal_and_exact :
    (RxLegal (draining filled) ∧ RxExact (draining filled) ∧ RxLegal (asAgent .dev base) ∧ RxExact (asAgent .dev base)) ∧
    filled.rxReady = true ∧
    got (exec .rxDrain (draining filled)) (fun t => !allocFailed (newOutputs filled t) && headIndex .rx t == 2) = true ∧
    got (exec (.devRxFrame 60) (asAgent .dev base)) (fun t => headIndex .rx t == 1) = true ∧
    ∀ i, i < ringSize .rx base → ∀ k, k < (60 : Idx).toNat →
      descPayload .rx (headIndex .rx base) base + BitVec.ofNat 64 k ≠ descAddr .rx i 12 base :=
  ⟨⟨⟨by decide +kernel⟩, filled_rx_exact, ⟨by decide +kernel⟩, base_rx_exact⟩, by decide +kernel⟩

/-- The grants that `filled` holds. -/
def twoGrants : List Grant := [{ handle := 9, addr := 0x90004000 }, { handle := 10, addr := 0x90004800 }]

/-- Two completed slots, two grants, and a third slot that is not completed. -/
theorem filled_ready : DrainReady twoGrants [] filled := by
  have ⟨ready, count, allocs, grants, fresh, done, stops⟩ : filled.rxReady = true ∧
      (0 < twoGrants.length ∧ twoGrants.length < ringSize .rx filled) ∧ filled.allocs = twoGrants.map some ++ [] ∧
      grantsOk filled.cfg filled.bufs (liveRegions filled) twoGrants = true ∧
      (∀ g ∈ twoGrants, namedBy g.handle none 0 filled.txBuf = false ∧ namedBy g.handle none 0 filled.rxBuf = false) ∧
      (∀ j, j < 2 → ddSet (descStatus .rx (drainSlot filled j) filled) = true ∧
        (descLength .rx (drainSlot filled j) filled).toNat ≤ 2048 ∧
        filled.slotAt .rx (drainSlot filled j) = some (BitVec.ofNat 32 (j + 1)) ∧
        filled.bufOf (BitVec.ofNat 32 (j + 1)) = some (rxBuffer j).2) ∧
      ddSet (descStatus .rx (drainSlot filled 2) filled) = false := by decide +kernel
  exact ⟨ready, ⟨by decide +kernel⟩, count, allocs, grants, fresh,
    fun j hj => ⟨(done j hj).1, (done j hj).2.1, _, _, (done j hj).2.2.1, (done j hj).2.2.2⟩, stops⟩

theorem witness_drain_ready : AtDrain (draining filled) ∧ DrainReady twoGrants [] (draining filled) :=
  have h := filled_ready
  ⟨at_drain (by decide +kernel), h.ready, ⟨h.ring.ring⟩, h.count, h.allocs, h.grants, h.fresh, h.completed, h.stops⟩

theorem witness_handler_drains :
    CanIssue .irq filled ∧ filled.irqActive = false ∧ filled.rxLock = .free ∧ DrainReady twoGrants [] filled :=
  ⟨by decide +kernel, rfl, rfl, filled_ready⟩

theorem witness_handler_phases :
    ({ filled with ops := [(0, .irqHandler .i0)] }).failed = false ∧
    ({ filled with ops := [(0, .irqHandler .i0)] }).opOf .irq = some (.irqHandler .i0) ∧ filled.irqActive = false ∧
    ({ filled with ops := [(0, .irqHandler .i2)] }).rxLock = .free ∧
    ({ filled with ops := [(0, .irqHandler .i2)], rxLock := .held (.thread 1) }).rxLock = .held (.thread 1) ∧
    ({ filled with ops := [(0, .irqHandler .i4)], rxLock := .held .irq }).rxLock = .held filled.issuer ∧
    CanIssue .irq (asAgent .irq base) ∧ base.rxLock = .free ∧ base.irqActive = false := by decide +kernel

theorem witness_device_events :
    CanIssue .dev enqueued ∧ enSet enqueued.regs.tctl = true ∧ enqueued.txReady = true ∧ 0 < enqueued.txPending ∧
    enqueued.txInflight = none ∧ txdCmd (headIndex .tx enqueued) enqueued &&& ~~~0x09 = 0 ∧
    (txdCmd (headIndex .tx enqueued) enqueued).getLsbD 0 = true ∧ descLength .tx (headIndex .tx enqueued) enqueued ≠ 0 ∧
    CanIssue .dev (asAgent .dev base) ∧ base.txPending = 0 ∧ CanIssue .dev inFlight ∧ inFlight.txInflight = some latched ∧
    inMemory enqueued.cfg (runAt (descPayload .tx 0 enqueued) (descLength .tx 0 enqueued).toNat) = true ∧
    inMemory enqueued.cfg (runAt 0xFFFFFFFFFFFFFFFE 3) = false ∧ inMemory base.cfg (runAt (descPayload .rx 0 base) 2048) = true ∧
    (2048 : Idx).toNat ≤ base.cfg.rxBufBytes ∧ base.cfg.rxBufBytes < (2049 : Idx).toNat ∧ enSet base.regs.rctl = true ∧
    ringDist (headIndex .rx base) (tailIndex .rx base) (ringSize .rx base) ≠ 0 ∧
    ringDist 7 (tailIndex .rx base) (ringSize .rx base) = 0 ∧ enSet fresh.regs.rctl = false ∧
    (arriving { base with frames := [{ data := [10], fields := [] }] }).data[0]? = some 10 := by decide +kernel

theorem witness_frame_apart :
    outside (descAddr .rx (headIndex .rx base) 8 base) 8 (descPayload .rx (headIndex .rx base) base + BitVec.ofNat 64 0) ∧
    outside (descPayload .rx (headIndex .rx base) base) 2048 0x80010000 := by
  unfold outside
  exact ⟨by decide +kernel, by decide +kernel⟩

theorem witness_hardware_reset : (asAgent .env base).issuer = .env ∧ base.issuer ≠ .env := by decide +kernel

/-- A legal state from which a step goes on, with a TRANSMIT at T5 under the lock: the premises of the
invariants. -/
theorem witness_legal : Legal { inTransmit .t5 base with inputs := [.proceed (.thread 1)] } := by
  have ⟨mem, bufs, ops, regs, enables, rx⟩ : Memory.wf base.mem = true ∧ bufsLegal base.cfg base.bufs = true ∧
      opsLegal (inTransmit .t5 base).ops = true ∧ RegsLegal base.regs = true ∧ enablesLegal base = true ∧
      (8 ≤ ringSize .rx base ∧ headIndex .rx base < ringSize .rx base ∧ tailIndex .rx base < ringSize .rx base) := by
    decide +kernel
  exact { mem, bufs, ops, regs, enables, tx := tx_legal_of_no_flight rfl ⟨base_tx_legal.ring, fun e => (nomatch e)⟩, rx := ⟨fun _ => rx⟩ }

theorem witness_legal_step :
    got (step { inTransmit .t5 base with inputs := [.proceed (.thread 1)] }) (fun t => txdCmd 0 t == 9) = true := by
  decide +kernel

theorem witness_critical_sections : CriticalSections (inTransmit .t5 base) := by
  intro a o h
  have hk : (5 = agentKey a ∧ Op.transmit { phase := .t5, b := 1001, t := 0, st := 1, old := none } = o) := by
    by_cases e : 5 = agentKey a
    · exact ⟨e, by simpa [inTransmit, State.opOf, Assoc.lookup, e] using h⟩
    · simp [inTransmit, State.opOf, Assoc.lookup, e] at h
  obtain ⟨hk, rfl⟩ := hk
  have ha : a = .thread 1 := by
    cases a <;> simp [agentKey] at hk
    subst hk; rfl
  subst ha
  decide +kernel

theorem witness_two_agents_never_both :
    (inTransmit .t5 base).opOf (.thread 1) =
      some (.transmit { phase := .t5, b := 1001, t := 0, st := 1, old := none }) ∧
    Op.holdsTx (.transmit { phase := .t5, b := 1001, t := 0, st := 1, old := none }) = true := by decide +kernel

theorem witness_failed_and_geometry :
    got (exec (.ringInitTx 4) fresh) (fun t => t.failed) = true ∧
    got (exec .hwReset { asAgent .env base with failed := true }) (fun t => !t.failed) = true ∧
    got (exec .devTxDone inFlight) (fun t => t.txReady) = true ∧ Instr.devTxDone ≠ .hwReset ∧
    got (proceed (inTransmit .t2 base)) (fun t => t.txReady && !t.failed) = true := by decide +kernel

theorem witness_causes :
    got (exec (.devRxFrame 60) (asAgent .dev base)) (fun t => t.regs.icr.getLsbD 7) = true ∧
    got (exec .fence filled) (fun t => t.regs.icr.getLsbD 7) = true ∧
    got (proceed { filled with ops := [(0, .irqHandler .i0)] }) (fun t => t.regs.icr.getLsbD 7) = true := by decide +kernel

theorem witness_ring_arithmetic :
    (1 ≤ 1 ∧ 1 ≤ 65528 ∧ 0 < 1) ∧ (1 ≤ 65528 ∧ 65528 ≤ 65528 ∧ 65527 < 65528) := by decide +kernel

end Sys2Proof.Tests
end

section
/-! PROOFS. The scope of the model (spec file 00_scope.md): what one step takes from the schedule and runs. -/

namespace Sys2Proof.Machine

open Sys2Proof

/-! One rule for the schedule, one for each event whose word is decoded, and two for the word placed by
`withFetchWord`. -/

theorem step_of_inputs_nil {s : State} (h : s.inputs = []) : step s = .next s := by
  simp only [step, h]

theorem step_of_inputs_cons {s : State} {e : Event} {rest : List Event} (h : s.inputs = e :: rest) :
    step s = stepEvent e rest s := by
  simp only [step, h]

theorem stepEvent_issue_of_decode_ok {w : OpWord} {i : Instr} (h : decode w = .ok i) (a : Agent)
    (rest : List Event) (s : State) : stepEvent (.issue a w) rest s = exec i (s.taking a rest) := by
  simp only [stepEvent, h]

theorem stepEvent_issue_of_decode_error {w : OpWord} {e : DecodeError} (h : decode w = .error e) (a : Agent)
    (rest : List Event) (s : State) : stepEvent (.issue a w) rest s = .refused (.undecodable e) := by
  simp only [stepEvent, h]

theorem stepEvent_start_of_decode_ok {w : OpWord} {i : Instr} (h : decode w = .ok i) (a : Agent)
    (rest : List Event) (s : State) :
    stepEvent (.start a w) rest s = (startOnly i (s.taking a rest)).getD (exec i (s.taking a rest)) := by
  simp only [stepEvent, h]

theorem wordAgent_of_decode_ok {w : OpWord} {i : Instr} (h : decode w = .ok i) (s : State) :
    wordAgent w s = defaultAgent i s := by
  simp only [wordAgent, h]

theorem State.withFetchWord_inputs (s : State) (n : Nat) (w : OpWord) :
    (s.withFetchWord n w.toNat).inputs = .issue (wordAgent w s) w :: s.inputs := by
  simp only [State.withFetchWord, BitVec.ofNat_toNat, BitVec.setWidth_eq]

/-- Taking the placed word from the schedule leaves the schedule as it was before the word was placed. -/
theorem State.withFetchWord_taking (s : State) (n w : Nat) (a : Agent) :
    (s.withFetchWord n w).taking a s.inputs = { s with issuer := a } := rfl

theorem step_withFetchWord {w : OpWord} {i : Instr} (h : decode w = .ok i) (s : State) (n : Nat) :
    step (s.withFetchWord n w.toNat) = exec i { s with issuer := defaultAgent i s } := by
  rw [step_of_inputs_cons (s.withFetchWord_inputs n w), stepEvent_issue_of_decode_ok h,
    State.withFetchWord_taking, wordAgent_of_decode_ok h]

/-- Settles O6: the head of the schedule is taken, then the rule of its event applies. -/
theorem stepRunsTheDecodedOperation : Obligations.StepRunsTheDecodedOperation := by
  unfold Obligations.StepRunsTheDecodedOperation
  refine ⟨?issue, ?undecodable, ?start, ?prepare, ?mutate, ?proceed, ?empty, ?placed⟩
  case issue =>
    intro s a w i rest hin hdec
    exact (step_of_inputs_cons hin).trans (stepEvent_issue_of_decode_ok hdec a rest s)
  case undecodable =>
    intro s a w e rest hin hdec
    exact (step_of_inputs_cons hin).trans (stepEvent_issue_of_decode_error hdec a rest s)
  case start =>
    intro s a w i rest hin hdec
    exact (step_of_inputs_cons hin).trans (stepEvent_start_of_decode_ok hdec a rest s)
  case prepare =>
    intro s a h bytes rest hin
    exact step_of_inputs_cons hin
  case mutate =>
    intro s a r p i off bytes rest hin
    exact step_of_inputs_cons hin
  case proceed =>
    intro s a rest hin
    exact step_of_inputs_cons hin
  case empty =>
    intro s hin
    exact step_of_inputs_nil hin
  case placed =>
    intro s w i n hdec
    exact step_withFetchWord hdec s n

end Sys2Proof.Machine
end

section
/-! PROOFS. What a step is made of. Every instruction and every phase is a sequence of elementary updates of the
state, each with what its operation tested before it; an invariant is proved once for each update, and every step
keeps it. -/

namespace Sys2Proof.Machine

open Sys2Proof

/-- Who makes an elementary update: any phase, port or ring operation; the initialisation collaborator or the fetch;
the device engine moving a head; a construction that fails; a reset; the schedule. -/
inductive UpdateKind where
  | phase
  | setup
  | txHead
  | rxHead
  | failure
  | blockReset
  | hwReset
  | schedule

/-- A buffer that may be listed: not in the pool, its length within its area, its area no smaller than RX_BUF_BYTES
(R43, R186). -/
def bufferOk (p : Config.Params) (b : Buffer) : Bool :=
  b.holder != .pool && decide (b.len ≤ b.area) && decide (p.rxBufBytes ≤ b.area)

/-- One elementary update. -/
inductive Update : UpdateKind → State → State → Prop where
  | emit (o : Output) (s : State) : Update .phase s (s.emit o)
  | store (a : Addr) (bs : List Byte) (s : State) : Update .phase s (s.storeBytes a bs)
  | lock (r : Ring) (l : Lock) (s : State) : Update .phase s (s.setLock r l)
  | opSet (o : Op) (s : State) : Update .phase s (s.setOp o)
  | opEnd (s : State) : Update .phase s s.clearOp
  | slots (r : Ring) (l : List (Option Handle)) (s : State) : Update .phase s (s.setSlots r l)
  /-- A buffer is written; the new one may be listed where what the handle named before may. -/
  | buffer (h : Handle) (b : Buffer) (s : State)
      (ok : (∀ c, s.bufOf h = some c → bufferOk s.cfg c = true) → bufferOk s.cfg b = true) :
      Update .phase s (s.setBuf h b)
  | bufferGone (h : Handle) (s : State) : Update .phase s (s.dropBuf h)
  /-- Inputs of the environment and free values are used up (log 5 to 7). -/
  | supplies (allocs : List (Option Grant)) (frames : List Frame) (draws : Nat) (s : State) :
      Update .phase s { s with allocs := allocs, frames := frames, draws := draws }
  | handler (active : Bool) (s : State) : Update .phase s { s with irqActive := active }
  | acknowledge (v : Word) (s : State) : Update .phase s (acknowledge v s)
  /-- WR32 TDT before construction (R143). -/
  | txTailZero (s : State) (hr : s.txReady = false) : Update .phase s { s with regs := { s.regs with tdt := 0 } }
  /-- The commit (R143). -/
  | commit (v : Word) (s : State) (hr : s.txReady = true) (hv : indexOk v = true) (hi : indexField v < ringSize .tx s)
      (hp : s.txPending + ringDist (tailIndex .tx s) (indexField v) (ringSize .tx s) ≤ ringSize .tx s) :
      Update .phase s { s with
        regs := { s.regs with tdt := v }
        txPending := s.txPending + ringDist (tailIndex .tx s) (indexField v) (ringSize .tx s) }
  /-- WR32 RDT (R145). -/
  | rxTail (v : Word) (s : State) (hv : indexOk v = true) (hi : indexField v < ringSize .rx s) :
      Update .phase s { s with regs := { s.regs with rdt := v } }
  /-- DEV_TX_FETCH latches the slot at the head (R251). -/
  | latch (f : Inflight) (s : State) (hp : 0 < s.txPending) (hf : f.slot.toNat = headIndex .tx s) :
      Update .setup s { s with txInflight := some f }
  | mask (v : Word) (s : State) (hv : v &&& ~~~rxt0 = 0) :
      Update .setup s { s with regs := { s.regs with ims := setMask s.regs.ims v } }
  | rxEnable (v : Word) (s : State)
      (hv : v = 0 ∨ (v = ctlEn ∧ s.rxReady = true ∧ s.regs.rdtr = 0 ∧ s.regs.radv = 0)) :
      Update .setup s { s with regs := { s.regs with rctl := v } }
  | txEnable (v : Word) (s : State) (hv : v = 0 ∨ (v = ctlEn ∧ s.txReady = true)) :
      Update .setup s { s with regs := { s.regs with tctl := v } }
  | rdtrZero (s : State) : Update .setup s { s with regs := { s.regs with rdtr := 0 } }
  | radvZero (s : State) : Update .setup s { s with regs := { s.regs with radv := 0 } }
  | filter (ral rah : Word) (mta : Vector Word 128) (s : State) :
      Update .setup s { s with regs := { s.regs with ral := ral, rah := rah, mta := mta } }
  | txBase (lo hi : Word) (s : State) (hr : s.txReady = false) :
      Update .setup s { s with regs := { s.regs with tdbal := lo, tdbah := hi } }
  | txLength (v : Word) (s : State) (hr : s.txReady = false) (hv : lengthOk v = true) :
      Update .setup s { s with regs := { s.regs with tdlen := v } }
  | txHeadZero (s : State) (hr : s.txReady = false) : Update .setup s { s with regs := { s.regs with tdh := 0 } }
  | rxBase (lo hi : Word) (s : State) (hr : s.rxReady = false) :
      Update .setup s { s with regs := { s.regs with rdbal := lo, rdbah := hi } }
  | rxLength (v : Word) (s : State) (hr : s.rxReady = false) (hv : lengthOk v = true) :
      Update .setup s { s with regs := { s.regs with rdlen := v } }
  | rxHeadZero (s : State) (hr : s.rxReady = false) : Update .setup s { s with regs := { s.regs with rdh := 0 } }
  /-- The transmit ring is constructed (R191). -/
  | txBuilt (l : List (Option Handle)) (s : State) (hr : s.txReady = false) (hn : 8 ≤ ringSize .tx s) :
      Update .setup s { s with
        regs := { s.regs with tdh := 0, tdt := 0 }
        txBuf := l, txPending := 0, txInflight := none, txReady := true }
  /-- The receive ring is constructed (R192). -/
  | rxBuilt (v : Word) (s : State) (hr : s.rxReady = false) (hn : 8 ≤ ringSize .rx s) (hv : indexOk v = true)
      (hi : indexField v < ringSize .rx s) :
      Update .setup s { s with regs := { s.regs with rdh := 0, rdt := v }, rxReady := true }
  /-- A construction that fails leaves its buffers to U8. -/
  | abandon (s : State) : Update .setup s (abandonBuffers s)
  /-- The slot in flight has completed (R252). -/
  | txDone (f : Inflight) (s : State) (hf : s.txInflight = some f) :
      Update .txHead s { s with
        regs := { s.regs with tdh := indexWord (ringNext f.slot.toNat (ringSize .tx s)) }
        txPending := s.txPending - 1, txInflight := none }
  /-- A frame has arrived (R253). -/
  | rxDone (s : State) (hr : s.rxReady = true) :
      Update .rxHead s { s with
        regs := { s.regs with
          rdh := indexWord (ringNext (headIndex .rx s) (ringSize .rx s)), icr := raiseArrival s.regs.icr } }
  | fails (s : State) : Update .failure s { s with failed := true }
  | blockReset (s : State) : Update .blockReset s (blockReset s)
  | hwReset (s : State) : Update .hwReset s (hwReset s)
  | taking (a : Agent) (rest : List Event) (s : State) : Update .schedule s (s.taking a rest)

/-- The updates an instruction may be made of: a head is moved by its device event alone, a failure is a
construction's, a reset its own instruction's. -/
def UpdateKind.allowedIn : UpdateKind → Instr → Prop
  | .phase, _ => True
  | .setup, _ => True
  | .txHead, i => i = .devTxDone
  | .rxHead, i => ∃ len, i = .devRxFrame len
  | .failure, i => ∃ n, i = .ringInitTx n ∨ i = .ringInitRx n
  | .blockReset, i => ∃ v, i = .wr32Ctrl v
  | .hwReset, i => i = .hwReset
  | .schedule, _ => False

/-- An elementary update that instruction `i` may make. -/
def UpdateIn (i : Instr) (s t : State) : Prop := ∃ k : UpdateKind, k.allowedIn i ∧ Update k s t

/-- An elementary update of some kind. -/
def SomeUpdate (s t : State) : Prop := ∃ k : UpdateKind, Update k s t

theorem Update.inInstr {k : UpdateKind} {s t : State} (u : Update k s t) {i : Instr} (h : k.allowedIn i) :
    UpdateIn i s t := ⟨k, h, u⟩

theorem UpdateIn.some {i : Instr} {s t : State} (h : UpdateIn i s t) : SomeUpdate s t := by
  obtain ⟨k, -, u⟩ := h
  exact ⟨k, u⟩

/-! Results reached by updates. -/

/-- Where the result is a next state, updates of `R` lead to it from `s`. -/
def Leads (R : State → State → Prop) (s : State) (r : Result) : Prop :=
  ∀ t, r = .next t → Relation.ReflTransGen R s t

section Leads

variable {R : State → State → Prop} {s : State}

theorem Leads.next {t : State} (h : Relation.ReflTransGen R s t) : Leads R s (.next t) := by
  intro u e
  cases e
  exact h

theorem Leads.one {t : State} (h : R s t) : Leads R s (.next t) := .next (.single h)

theorem Leads.refused (x : Refusal) : Leads R s (.refused x) := by
  intro t e
  cases e

theorem Leads.fault (x : Fault) : Leads R s (.fault x) := by
  intro t e
  cases e

theorem Leads.after {u : State} {r : Result} (h : Relation.ReflTransGen R s u) (hr : Leads R u r) : Leads R s r :=
  fun t e => h.trans (hr t e)

theorem Leads.andThen {r : Result} {k : State → Result} (hr : Leads R s r) (hk : ∀ u, Leads R u (k u)) :
    Leads R s (andThen r k) := by
  intro t e
  obtain ⟨u, hu, ht⟩ := andThen_eq_next.mp e
  exact (hr u hu).trans (hk u t ht)

theorem Leads.mono {Q : State → State → Prop} {r : Result} (hr : Leads R s r) (hq : ∀ s t, R s t → Q s t) :
    Leads Q s r :=
  fun t e => Relation.ReflTransGen.mono hq s t (hr t e)

theorem Leads.ite {c : Prop} [Decidable c] {x y : Result} (hx : c → Leads R s x) (hy : ¬ c → Leads R s y) :
    Leads R s (if c then x else y) := by
  split
  · exact hx ‹_›
  · exact hy ‹_›

/-- What is refused on a condition leads nowhere; only the other case counts. -/
theorem Leads.guard {c : Prop} [Decidable c] {x : Refusal} {y : Result} (hy : ¬ c → Leads R s y) :
    Leads R s (if c then .refused x else y) :=
  .ite (fun _ => .refused x) hy

theorem Leads.admission {c : AgentClass} {r : Result} (hr : Leads R s r) : Leads R s (admission c s r) := by
  intro t e
  obtain ⟨-, -, -, h⟩ := admission_eq_next.mp e
  exact hr t h

end Leads

/-! The shared operations. -/

/-- The updates of a phase, a port or a ring operation, one after another. -/
abbrev PhaseUpdates : State → State → Prop := Relation.ReflTransGen (Update .phase)

/-- The result is reached by updates of a phase. -/
abbrev ByPhase (s : State) (r : Result) : Prop := Leads (Update .phase) s r

theorem respond_phaseUpdates (c : Byte) (v : Word) (s : State) : PhaseUpdates s (s.respond c v) :=
  .single (.emit _ s)

theorem done_byPhase (s : State) : ByPhase s (done s) := .next (respond_phaseUpdates _ _ s)

theorem setSlot_phaseUpdate (r : Ring) (i : Nat) (x : Option Handle) (s : State) :
    Update .phase s (s.setSlot r i x) := .slots r _ s

theorem setDescStatus_phaseUpdate (r : Ring) (i : Nat) (v : Byte) (s : State) :
    Update .phase s (setDescStatus r i v s) := .store _ _ s

theorem setTxdCmd_phaseUpdate (i : Nat) (v : Byte) (s : State) : Update .phase s (setTxdCmd i v s) := .store _ _ s

theorem setDescPayload_phaseUpdate (r : Ring) (i : Nat) (a : Addr) (s : State) :
    Update .phase s (setDescPayload r i a s) := .store _ _ s

theorem setDescLength_phaseUpdate (r : Ring) (i n : Nat) (s : State) :
    Update .phase s (setDescLength r i n s) := .store _ _ s

theorem clearDesc_phaseUpdate (r : Ring) (i : Nat) (s : State) : Update .phase s (clearDesc r i s) := .store _ _ s

theorem frameGone_phaseUpdate (s : State) : Update .phase s s.frameGone := .supplies s.allocs _ _ s

theorem nextProposal_phaseUpdate (s : State) : Update .phase s s.nextProposal := by
  unfold State.nextProposal
  split
  · exact .supplies _ s.frames s.draws s
  · exact .supplies s.allocs s.frames _ s

theorem lockThen_byPhase {r : Ring} {w s : State} {k : State → Result} (hw : PhaseUpdates s w)
    (hk : ∀ u, ByPhase u (k u)) : ByPhase s (lockThen r w s k) := by
  intro t e
  rcases lockThen_eq_next.mp e with ⟨-, h⟩ | ⟨a, -, -, rfl⟩
  · exact .head (.lock r _ s) (hk _ t h)
  · exact hw

theorem unlockThen_byPhase {r : Ring} {s : State} {k : State → Result} (hk : ∀ u, ByPhase u (k u)) :
    ByPhase s (unlockThen r s k) := by
  intro t e
  obtain ⟨-, h⟩ := unlockThen_eq_next.mp e
  exact .head (.lock r _ s) (hk _ t h)

theorem freeBuf_byPhase (h : Handle) (s : State) : ByPhase s (freeBuf h s) := by
  intro t e
  obtain ⟨-, rfl⟩ := freeBuf_eq_next.mp e
  exact .head (.bufferGone h s) (.single (.emit _ _))

theorem freeSlotBuf_byPhase (x : Option Handle) (s : State) : ByPhase s (freeSlotBuf x s) := by
  cases x with
  | none => exact .next .refl
  | some h => exact freeBuf_byPhase h s

theorem bufferOk_iff {p : Config.Params} {b : Buffer} :
    bufferOk p b = true ↔ b.holder ≠ .pool ∧ b.len ≤ b.area ∧ p.rxBufBytes ≤ b.area := by
  simp [bufferOk, and_assoc]

theorem appendBuf_byPhase (h : Handle) (n : Nat) (s : State) : ByPhase s (appendBuf h n s) := by
  intro t e
  obtain ⟨hn, b, hb, rfl⟩ := appendBuf_eq_next.mp e
  have ok : (∀ c, s.bufOf h = some c → bufferOk s.cfg c = true) → bufferOk s.cfg { b with len := n } = true := by
    intro hc
    obtain ⟨hp, -, ha⟩ := bufferOk_iff.mp (hc b hb)
    exact bufferOk_iff.mpr ⟨hp, Nat.le_trans hn ha, ha⟩
  exact .head (.buffer h _ s ok) (.single (.emit _ _))

theorem deliverBuf_byPhase (h : Handle) (s : State) : ByPhase s (deliverBuf h s) := by
  intro t e
  obtain ⟨b, hb, rfl⟩ := deliverBuf_eq_next.mp e
  have ok : (∀ c, s.bufOf h = some c → bufferOk s.cfg c = true) →
      bufferOk s.cfg { b with holder := .upstream } = true := by
    intro hc
    obtain ⟨-, hl⟩ := bufferOk_iff.mp (hc b hb)
    exact bufferOk_iff.mpr ⟨by simp, hl⟩
  exact .head (.buffer h _ s ok) (.single (.emit _ _))

theorem allocate_phaseUpdates (x : List Region) (n : Idx) (s : State) : PhaseUpdates s (allocate x n s) := by
  unfold allocate
  split
  · next g _ =>
    have ok : bufferOk s.cfg (freshBuffer g s.issuer s) = true := bufferOk_iff.mpr (by simp [freshBuffer])
    exact .head (nextProposal_phaseUpdate s)
      (.head (.buffer g.handle _ _ (fun _ => by simpa using ok)) (.single (.emit _ _)))
  · exact .head (nextProposal_phaseUpdate s) (.single (.emit _ _))

theorem allocThen_byPhase {x : List Region} {n : Idx} {s : State} {k : Option Handle → State → Result}
    (hk : ∀ a u, ByPhase u (k a u)) : ByPhase s (allocThen x n s k) := by
  intro t e
  obtain ⟨-, h⟩ := allocThen_eq_next.mp e
  exact (allocate_phaseUpdates x n s).trans (hk _ _ t h)

theorem installHolder_phaseUpdates (h : Handle) (r : Ring) (i : Nat) (s : State) :
    PhaseUpdates s (s.installHolder h r i) := by
  unfold State.installHolder
  split
  · next b hb =>
    refine .single (.buffer h _ s fun hc => ?_)
    obtain ⟨-, hl⟩ := bufferOk_iff.mp (hc b hb)
    exact bufferOk_iff.mpr ⟨by simp, hl⟩
  · exact .refl

/-- A buffer made live and installed at once is written once, with its slot as holder. -/
theorem installHolder_setBuf (h : Handle) (b : Buffer) (r : Ring) (i : Nat) (s : State) :
    (s.setBuf h b).installHolder h r i = s.setBuf h { b with holder := .ring r i } := by
  unfold State.installHolder
  rw [bufOf_setBuf_self]
  simp only [State.setBuf, Assoc.insert_insert]

theorem setSlot_setBuf (h : Handle) (b : Buffer) (r : Ring) (i : Nat) (x : Option Handle) (s : State) :
    (s.setBuf h b).setSlot r i x = (s.setSlot r i x).setBuf h b := by
  cases r <;> rfl

theorem installSlot_byPhase (r : Ring) (i : Nat) (x : Option Handle) (s : State) :
    ByPhase s (installSlot r i x s) := by
  intro t e
  obtain ⟨-, -, -, ⟨rfl, rfl⟩ | ⟨h, rfl, -, hl⟩⟩ := installSlot_eq_next.mp e
  · exact .single (setSlot_phaseUpdate r i none s)
  rcases liveThen_eq_next.mp hl with ⟨-, hk⟩ | ⟨-, b, hb, hk⟩
  · cases hk
    exact .head (setSlot_phaseUpdate r i _ s) (installHolder_phaseUpdates h r i _)
  · cases hk
    obtain ⟨hlen, harea, -⟩ := admissible_iff.mp (pooledBuffer_admissible hb)
    have drawn : ({ s.setBuf h b with draws := s.draws + 1 } : State)
        = ({ s with draws := s.draws + 1 } : State).setBuf h b := rfl
    rw [drawn, setSlot_setBuf, installHolder_setBuf]
    refine .head (.supplies s.allocs s.frames _ s) (.head (setSlot_phaseUpdate r i (some h) _)
      (.single (.buffer h _ _ ?_)))
    intro _
    exact bufferOk_iff.mpr ⟨by simp, hlen, by simpa using harea⟩

theorem markOwned_byPhase (r : Ring) (i : Nat) (c : Byte) (s : State) : ByPhase s (markOwned r i c s) := by
  intro t e
  obtain ⟨-, -, -, -, -, rfl⟩ := markOwned_eq_next.mp e
  cases r with
  | tx => exact .head (setTxdCmd_phaseUpdate i c s) (.single (setDescStatus_phaseUpdate .tx i 0 _))
  | rx => exact .single (setDescStatus_phaseUpdate .rx i 0 s)

theorem wrTdt_byPhase (v : Word) (s : State) : ByPhase s (wrTdt v s) := by
  intro t e
  rcases wrTdt_eq_next.mp e with ⟨hr, -, rfl⟩ | ⟨hr, -, hv, hi, hp, rfl⟩
  · exact .single (.txTailZero s hr)
  · exact .single (.commit v s hr hv hi hp)

theorem wrRdt_byPhase (v : Word) (s : State) : ByPhase s (wrRdt v s) := by
  intro t e
  obtain ⟨-, hv, hi, rfl⟩ := wrRdt_eq_next.mp e
  exact .single (.rxTail v s hv hi)

theorem wrIcr_byPhase (v : Word) (s : State) : ByPhase s (wrIcr v s) := by
  intro t e
  obtain ⟨-, rfl⟩ := wrIcr_eq_next.mp e
  exact .single (.acknowledge v s)

/-! The phases of TRANSMIT, of a drain and of the handler. -/

theorem txGoto_byPhase (c : TxCtx) (s : State) : ByPhase s (txGoto c s) := .one (.opSet _ s)

theorem rxGoto_byPhase (c : RxCtx) (s : State) : ByPhase s (rxGoto c s) := .one (.opSet _ s)

theorem irqGoto_byPhase (p : IrqPhase) (s : State) : ByPhase s (irqGoto p s) := .one (.opSet _ s)

theorem whenSendable_byPhase {b : Handle} {s : State} {r : Result} (hr : ByPhase s r) :
    ByPhase s (whenSendable b s r) := by
  intro t e
  obtain ⟨-, -, -, h⟩ := whenSendable_eq_next.mp e
  exact hr t h

/-- The operation ends and its response is given. -/
theorem clearOp_respond_phaseUpdates (c : Byte) (v : Word) (s : State) : PhaseUpdates s (s.clearOp.respond c v) :=
  .head (.opEnd s) (respond_phaseUpdates c v _)

theorem txT6_byPhase (c : TxCtx) (s : State) : ByPhase s (txT6 c s) :=
  whenSendable_byPhase ((installSlot_byPhase _ _ _ s).andThen fun _ =>
    .after (.head (setDescPayload_phaseUpdate _ _ _ _) (.single (setDescLength_phaseUpdate _ _ _ _)))
      (txGoto_byPhase _ _))

theorem txPhase_byPhase (c : TxCtx) (s : State) : ByPhase s (txPhase c s) := by
  unfold txPhase
  cases c.phase with
  | t1 => exact lockThen_byPhase .refl (txGoto_byPhase _)
  | t2 => exact txGoto_byPhase _ s
  | t3 => exact txGoto_byPhase _ s
  | t4 => exact .andThen (.after (.single (setSlot_phaseUpdate _ _ _ s)) (freeSlotBuf_byPhase _ _)) (txGoto_byPhase _)
  | t5 => exact .andThen (markOwned_byPhase _ _ _ s) (txGoto_byPhase _)
  | t6 => exact txT6_byPhase c s
  | t7 => exact .andThen (wrTdt_byPhase _ s) (txGoto_byPhase _)
  | t8 => exact unlockThen_byPhase fun u => .next (clearOp_respond_phaseUpdates _ _ u)
  | t9 => exact unlockThen_byPhase fun u => .next (clearOp_respond_phaseUpdates _ _ u)

theorem rxD4_byPhase (c : RxCtx) (s : State) : ByPhase s (rxD4 c s) := by
  unfold rxD4
  cases s.slotAt .rx c.next.toNat with
  | none => exact .fault _
  | some cur => exact .andThen (appendBuf_byPhase _ _ s) (rxGoto_byPhase _)

theorem rxD5_byPhase (c : RxCtx) (s : State) : ByPhase s (rxD5 c s) := by
  unfold rxD5
  cases c.cur with
  | none => exact .fault _
  | some cur => exact .andThen (deliverBuf_byPhase _ s) (rxGoto_byPhase _)

theorem rxD6_byPhase (c : RxCtx) (s : State) : ByPhase s (rxD6 c s) :=
  (installSlot_byPhase _ _ _ s).andThen fun _ =>
    .after (.head (setDescPayload_phaseUpdate _ _ _ _) (.single (setDescStatus_phaseUpdate _ _ _ _)))
      (rxGoto_byPhase _ _)

theorem rxPhase_byPhase (c : RxCtx) (s : State) : ByPhase s (rxPhase c s) := by
  unfold rxPhase
  cases c.phase with
  | d1 => exact rxGoto_byPhase _ s
  | d2 => exact rxGoto_byPhase _ s
  | d3 => exact allocThen_byPhase fun _ => rxGoto_byPhase _
  | d4 => exact rxD4_byPhase c s
  | d5 => exact rxD5_byPhase c s
  | d6 => exact rxD6_byPhase c s
  | d7 => exact .andThen (wrRdt_byPhase _ s) (rxGoto_byPhase _)
  | dx => exact .one (.opSet _ s)

theorem irqI0_byPhase (s : State) : ByPhase s (irqI0 s) :=
  .ite (fun _ => .next .refl) fun _ => .after (.single (.handler true s)) (irqGoto_byPhase _ _)

theorem irqI1_byPhase (s : State) : ByPhase s (irqI1 s) :=
  .andThen (wrIcr_byPhase 0xFFFFFFFF s) (irqGoto_byPhase .i2)

theorem irqPhase_byPhase (p : IrqPhase) (s : State) : ByPhase s (irqPhase p s) := by
  cases p with
  | i0 => exact irqI0_byPhase s
  | i1 => exact irqI1_byPhase s
  | i2 => exact lockThen_byPhase .refl (irqGoto_byPhase _)
  | i3 c => exact rxPhase_byPhase c s
  | i4 => exact unlockThen_byPhase fun u => .next (.head (.handler false u) (.single (.opEnd _)))

theorem opPhase_byPhase (o : Op) (s : State) : ByPhase s (opPhase o s) := by
  cases o with
  | lockWait r => exact lockThen_byPhase .refl fun u => .next (clearOp_respond_phaseUpdates _ _ u)
  | transmit c => exact txPhase_byPhase c s
  | irqHandler p => exact irqPhase_byPhase p s

/-- A phase of an operation in progress makes updates of a phase only. -/
theorem proceed_byPhase (s : State) : ByPhase s (proceed s) := by
  unfold proceed
  refine .guard fun _ => ?_
  cases s.opOf s.issuer with
  | none => exact .next .refl
  | some o => exact opPhase_byPhase o s

theorem runPhases_byPhase (n : Nat) (s : State) : ByPhase s (runPhases n s) := by
  induction n generalizing s with
  | zero => exact .next .refl
  | succ n ih => exact .andThen (proceed_byPhase s) ih

theorem runDrain_byPhase (n : Nat) (s : State) : ByPhase s (runDrain n s) := by
  induction n generalizing s with
  | zero => exact .next .refl
  | succ n ih =>
    unfold runDrain
    split
    · exact .andThen (rxPhase_byPhase _ s) ih
    · exact .next .refl

theorem startTransmit_byPhase (b : Handle) (s : State) : ByPhase s (startTransmit b s) := by
  refine .admission (.guard fun _ => .guard fun _ => ?_)
  exact whenSendable_byPhase (.one (.opSet _ s))

theorem startDrain_byPhase (s : State) : ByPhase s (startDrain s) := by
  intro t e
  obtain ⟨-, -, rfl⟩ := startDrain_eq_next.mp e
  exact .refl

theorem startHandler_byPhase (s : State) : ByPhase s (startHandler s) := by
  refine .admission (.guard fun _ => .guard fun _ => ?_)
  exact .one (.opSet _ s)

/-- What starts an operation and stops makes updates of a phase only. -/
theorem startOnly_byPhase {i : Instr} {s : State} {r : Result} (h : startOnly i s = some r) : ByPhase s r := by
  cases i
  case transmit b => cases h; exact startTransmit_byPhase b s
  case rxDrain => cases h; exact startDrain_byPhase s
  case irqHandler => cases h; exact startHandler_byPhase s
  all_goals cases h

/-! Software's own writes (log 22). -/

theorem prepare_eq_next {h : Handle} {bytes : List Byte} {s t : State} :
    prepare h bytes s = .next t ↔
      s.opOf s.issuer = none ∧ ∃ b, s.bufOf h = some b ∧ b.holder = .caller s.issuer ∧ bytes.length ≤ b.area ∧
        (s.storeBytes b.addr bytes).setBuf h { b with len := bytes.length } = t := by
  unfold prepare
  cases s.opOf s.issuer with
  | some o => simp
  | none =>
    cases s.bufOf h with
    | none => simp
    | some b =>
      by_cases hc : b.holder = .caller s.issuer
      · by_cases ha : b.area < bytes.length
        · simp [hc, ha]
        · simp [hc, ha, Nat.le_of_not_lt ha]
      · simp [hc]

theorem prepare_byPhase (h : Handle) (bytes : List Byte) (s : State) : ByPhase s (prepare h bytes s) := by
  intro t e
  obtain ⟨-, b, hb, -, hlen, rfl⟩ := prepare_eq_next.mp e
  refine .head (.store b.addr bytes s) (.single (.buffer h _ _ fun hc => ?_))
  obtain ⟨hp, -, ha⟩ := bufferOk_iff.mp (hc b hb)
  exact bufferOk_iff.mpr ⟨hp, hlen, ha⟩

theorem mutate_byPhase (r : Ring) (p : Part) (i off : Nat) (bytes : List Byte) (s : State) :
    ByPhase s (mutate r p i off bytes s) := by
  intro t e
  obtain ⟨a, n, -, -, rfl⟩ := mutate_eq_next.mp e
  exact .single (.store _ bytes s)

/-! Register writes. -/

/-- The result is reached by updates that `i` may make. -/
abbrev ByInstr (i : Instr) (s : State) (r : Result) : Prop := Leads (UpdateIn i) s r

theorem Leads.ofPhase {i : Instr} {s : State} {r : Result} (h : ByPhase s r) : ByInstr i s r :=
  h.mono fun _ _ u => u.inInstr (k := .phase) trivial

theorem Leads.setup {i : Instr} {s t : State} (u : Update .setup s t) : ByInstr i s (.next t) :=
  .one (u.inInstr trivial)

theorem readReg_byInstr {i : Instr} (v : Word) (s : State) : ByInstr i s (readReg v s) :=
  .ofPhase (.admission (.next (respond_phaseUpdates _ _ s)))

theorem writeReg_byInstr {i : Instr} {c : AgentClass} {w : State → Result} {s : State} (hw : ByInstr i s (w s)) :
    ByInstr i s (writeReg c w s) :=
  .admission (hw.andThen fun u => .ofPhase (done_byPhase u))

theorem beforeReady_byInstr {i : Instr} {r : Ring} {s : State} {w : Result}
    (hw : ringReady r s = false → ByInstr i s w) : ByInstr i s (beforeReady r s w) := by
  intro t e
  obtain ⟨hr, h⟩ := beforeReady_eq_next.mp e
  exact hw hr t h

theorem wrCtrl_byInstr (v w : Word) (s : State) : ByInstr (.wr32Ctrl v) s (wrCtrl w s) := by
  intro t e
  rcases wrCtrl_eq_next.mp e with ⟨-, rfl⟩ | ⟨-, -, rfl⟩
  · exact .refl
  · exact .single ((Update.blockReset s).inInstr ⟨v, rfl⟩)

theorem wrIms_byInstr {i : Instr} (v : Word) (s : State) : ByInstr i s (wrIms v s) := by
  intro t e
  obtain ⟨hv, rfl⟩ := wrIms_eq_next.mp e
  exact .single ((Update.mask v s hv).inInstr trivial)

theorem wrRctl_byInstr {i : Instr} (v : Word) (s : State) : ByInstr i s (wrRctl v s) := by
  refine .ite (fun h0 => .setup (.rxEnable v s (.inl h0))) fun _ =>
    .ite (fun h1 => .ite (fun h => ?_) fun _ => .refused _) fun _ => .refused _
  simp only [Bool.and_eq_true, beq_iff_eq, and_assoc] at h
  exact .setup (.rxEnable v s (.inr ⟨h1, h⟩))

theorem wrTctl_byInstr {i : Instr} (v : Word) (s : State) : ByInstr i s (wrTctl v s) :=
  .ite (fun h0 => .setup (.txEnable v s (.inl h0))) fun _ =>
    .ite (fun h1 => .ite (fun h => .setup (.txEnable v s (.inr ⟨h1, h⟩))) fun _ => .refused _) fun _ => .refused _

/-! Construction. -/

theorem clearTxds_phaseUpdates (k i : Nat) (s : State) : PhaseUpdates s (clearTxds k i s) := by
  induction k generalizing i s with
  | zero => exact .refl
  | succ k ih => exact .head (clearDesc_phaseUpdate .tx i s) (.head (setDescStatus_phaseUpdate .tx i _ _) (ih _ _))

theorem armSlot_phaseUpdates (i : Nat) (h : Handle) (s : State) : PhaseUpdates s (armSlot i h s) :=
  .head (clearDesc_phaseUpdate .rx i s) (.head (.slots .rx _ _) ((installHolder_phaseUpdates h .rx i _).trans
    (.head (setDescPayload_phaseUpdate .rx i _ _) (.single (setDescStatus_phaseUpdate .rx i _ _)))))

theorem malformed_eq_false {n : Nat} : malformed n = false ↔ 8 ≤ n ∧ n ≤ 65528 ∧ n % 8 = 0 := by
  simp only [malformed, Bool.or_eq_false_iff, beq_eq_false_iff_ne, bne_eq_false_iff_eq, decide_eq_false_iff_not]
  simp only [Config.nMax, Config.descBytes, Config.lenAlign]
  omega

theorem lengthField_ofNat {n : Nat} (h : n ≤ 65528) :
    lengthField (BitVec.ofNat 32 (Config.descBytes * n)) / Config.descBytes = n := by
  simp only [lengthField, Config.descBytes, BitVec.extractLsb'_toNat, BitVec.toNat_ofNat, Nat.shiftRight_zero]
  omega

theorem lengthOk_ofNat {n : Nat} (h : n ≤ 65528) (h8 : n % 8 = 0) :
    lengthOk (BitVec.ofNat 32 (Config.descBytes * n)) = true := by
  refine (lengthOk_iff _).mpr ⟨BitVec.eq_of_toNat_eq ?_, BitVec.eq_of_toNat_eq ?_⟩
  · simp only [Config.descBytes, BitVec.extractLsb'_toNat, BitVec.toNat_ofNat, BitVec.ofNat_eq_ofNat,
      Nat.shiftRight_eq_div_pow]
    omega
  · simp only [Config.descBytes, BitVec.extractLsb'_toNat, BitVec.toNat_ofNat, BitVec.ofNat_eq_ofNat,
      Nat.shiftRight_eq_div_pow]
    omega

/-! What no phase changes. -/

/-- From `s` to `t` the parameters, `failed`, the ready flags, what is in flight and every register but ICR and the
tails stay, and no output is taken back. -/
structure PhaseFrame (s t : State) : Prop where
  cfg : t.cfg = s.cfg
  failed : t.failed = s.failed
  txReady : t.txReady = s.txReady
  rxReady : t.rxReady = s.rxReady
  txInflight : t.txInflight = s.txInflight
  regs : t.regs = { s.regs with icr := t.regs.icr, tdt := t.regs.tdt, rdt := t.regs.rdt }
  out : s.out <+: t.out

theorem PhaseFrame.refl (s : State) : PhaseFrame s s := ⟨rfl, rfl, rfl, rfl, rfl, rfl, List.prefix_refl _⟩

theorem PhaseFrame.trans {s t u : State} (h : PhaseFrame s t) (k : PhaseFrame t u) : PhaseFrame s u where
  cfg := k.cfg.trans h.cfg
  failed := k.failed.trans h.failed
  txReady := k.txReady.trans h.txReady
  rxReady := k.rxReady.trans h.rxReady
  txInflight := k.txInflight.trans h.txInflight
  regs := by rw [k.regs, h.regs]
  out := h.out.trans k.out

theorem Update.phaseFrame {s t : State} (u : Update .phase s t) : PhaseFrame s t := by
  cases u with
  | emit o => exact ⟨rfl, rfl, rfl, rfl, rfl, rfl, List.prefix_append _ _⟩
  | lock r l => cases r <;> exact ⟨rfl, rfl, rfl, rfl, rfl, rfl, List.prefix_refl _⟩
  | slots r l => cases r <;> exact ⟨rfl, rfl, rfl, rfl, rfl, rfl, List.prefix_refl _⟩
  | _ => exact ⟨rfl, rfl, rfl, rfl, rfl, rfl, List.prefix_refl _⟩

theorem phaseFrame_of_updates {s t : State} (h : PhaseUpdates s t) : PhaseFrame s t := by
  induction h with
  | refl => exact .refl s
  | tail _ u ih => exact ih.trans u.phaseFrame

theorem PhaseFrame.tx_ringSize {s t : State} (h : PhaseFrame s t) : ringSize .tx t = ringSize .tx s := by
  simp only [ringSize, ringBytes]
  rw [h.regs]

theorem PhaseFrame.rx_ringSize {s t : State} (h : PhaseFrame s t) : ringSize .rx t = ringSize .rx s := by
  simp only [ringSize, ringBytes]
  rw [h.regs]

/-! Construction. -/

section InInstr

variable {i : Instr} {s t : State}

theorem Update.setupIn (u : Update .setup s t) : UpdateIn i s t := u.inInstr trivial

/-- Updates of a phase are updates that any instruction may make. -/
theorem updatesIn_of_phaseUpdates (h : PhaseUpdates s t) : Relation.ReflTransGen (UpdateIn i) s t :=
  Relation.ReflTransGen.mono (fun _ _ u => u.inInstr (k := .phase) trivial) s t h

theorem txGeometry_updates {n : Nat} (hr : s.txReady = false) (hn : n ≤ 65528) (h8 : n % 8 = 0) :
    Relation.ReflTransGen (UpdateIn i) s (txGeometry n s) :=
  have base := Update.txBase (s.cfg.txBase.extractLsb' 0 32) (s.cfg.txBase.extractLsb' 32 32) s hr
  .head base.setupIn (.single (Update.txLength _ _ (by exact hr) (lengthOk_ofNat hn h8)).setupIn)

theorem rxGeometry_updates {n : Nat} (hr : s.rxReady = false) (hn : n ≤ 65528) (h8 : n % 8 = 0) :
    Relation.ReflTransGen (UpdateIn i) s (rxGeometry n s) :=
  have base := Update.rxBase (s.cfg.rxBase.extractLsb' 0 32) (s.cfg.rxBase.extractLsb' 32 32) s hr
  .head base.setupIn (.head (Update.rxLength _ _ (by exact hr) (lengthOk_ofNat hn h8)).setupIn
    (.single ((Update.slots .rx [] _).inInstr trivial)))

theorem buildTx_updates {n : Nat} (hr : s.txReady = false) (hm : malformed n = false) :
    Relation.ReflTransGen (UpdateIn i) s (buildTx n s) := by
  obtain ⟨hlo, hhi, h8⟩ := malformed_eq_false.mp hm
  have cleared := clearTxds_phaseUpdates n 0 (txGeometry n s)
  have frame := phaseFrame_of_updates cleared
  have size : 8 ≤ ringSize .tx (clearTxds n 0 (txGeometry n s)) := by
    rw [frame.tx_ringSize]
    exact hlo.trans_eq (lengthField_ofNat hhi).symm
  exact (txGeometry_updates hr hhi h8).trans ((updatesIn_of_phaseUpdates cleared).trans
    (.single (Update.txBuilt _ _ (frame.txReady.trans hr) size).setupIn))

theorem fatal_updates (hi : UpdateKind.failure.allowedIn i) (code : Byte) (s : State) :
    Relation.ReflTransGen (UpdateIn i) s (fatal code s) :=
  .head ((Update.fails s).inInstr hi) (updatesIn_of_phaseUpdates (respond_phaseUpdates code 0 _))

theorem execRingInitTx_byInstr (n : Idx) (s : State) : ByInstr (.ringInitTx n) s (execRingInitTx n s) := by
  refine .admission (.guard fun hr => .guard fun _ => .ite (fun _ => ?_) fun hm => ?_)
  · exact .next (fatal_updates ⟨n, .inl rfl⟩ _ s)
  · exact .after (buildTx_updates (eq_false_of_ne_true hr) (eq_false_of_ne_true hm)) (.ofPhase (done_byPhase _))

theorem finishRx_updates {n : Nat} (hr : s.rxReady = false) (h8 : 8 ≤ n) (hn : ringSize .rx s = n) :
    Relation.ReflTransGen (UpdateIn i) s (finishRx n s) := by
  have hlt : n - 1 < 2 ^ 16 := by have := ringSize_lt .rx s; omega
  exact .single (Update.rxBuilt _ s hr (by omega) (indexOk_indexWord hlt)
    (by rw [indexField_indexWord hlt]; omega)).setupIn

theorem populateRx_byInstr {n : Nat} (k j : Nat) (h8 : 8 ≤ n) (hi : UpdateKind.failure.allowedIn i)
    (hr : s.rxReady = false) (hn : ringSize .rx s = n) : ByInstr i s (populateRx n k j s) := by
  induction k generalizing j s with
  | zero => exact .after (finishRx_updates hr h8 hn) (.ofPhase (done_byPhase _))
  | succ k ih =>
    intro t e
    obtain ⟨-, e⟩ := allocThen_eq_next.mp e
    have offered := allocate_phaseUpdates [newRing s.cfg.rxBase n] s.cfg.headroom s
    refine (updatesIn_of_phaseUpdates offered).trans ?_
    split at e
    · next h _ =>
      have armed := armSlot_phaseUpdates j h (allocate [newRing s.cfg.rxBase n] s.cfg.headroom s)
      have frame := phaseFrame_of_updates (offered.trans armed)
      exact (updatesIn_of_phaseUpdates armed).trans
        (ih (j + 1) (frame.rxReady.trans hr) (frame.rx_ringSize.trans hn) t e)
    · cases e
      exact .head (Update.abandon _).setupIn (fatal_updates hi _ _)

theorem execRingInitRx_byInstr (n : Idx) (s : State) : ByInstr (.ringInitRx n) s (execRingInitRx n s) := by
  refine .admission (.guard fun hr => .guard fun _ => .ite (fun _ => ?_) fun hm => ?_)
  · exact .next (fatal_updates ⟨n, .inr rfl⟩ _ s)
  · obtain ⟨hlo, hhi, h8⟩ := malformed_eq_false.mp (eq_false_of_ne_true hm)
    have hr' := eq_false_of_ne_true hr
    exact .after (rxGeometry_updates hr' hhi h8)
      (populateRx_byInstr _ 0 hlo ⟨n, .inr rfl⟩ hr' (lengthField_ofNat hhi))

/-! Device events. -/

theorem execDevTxFetch_byInstr (s : State) : ByInstr i s (execDevTxFetch s) := by
  refine .admission (.ite (fun _ => .next .refl) fun hf => .guard fun _ =>
    .guard fun _ => ?_)
  simp only [fetchEnabled, Bool.not_eq_true, Bool.not_eq_false', Bool.and_eq_true, decide_eq_true_eq] at hf
  obtain ⟨⟨-, pending⟩, -⟩ := hf
  have slot : (fetched (headIndex .tx s) s).slot.toNat = headIndex .tx s :=
    Nat.mod_eq_of_lt (indexField_lt s.regs.tdh)
  exact .after (.single (Update.latch _ s pending slot).setupIn) (.ofPhase (done_byPhase _))

theorem reportStatus_phaseUpdates (f : Inflight) (s : State) : PhaseUpdates s (reportStatus f s) := by
  unfold reportStatus
  split
  · exact .single (setDescStatus_phaseUpdate _ _ _ s)
  · exact .refl

theorem completeTx_updates {f : Inflight} (hf : s.txInflight = some f) :
    Relation.ReflTransGen (UpdateIn .devTxDone) s (completeTx f s) := by
  have reported : PhaseUpdates s (reportStatus f (s.emit (.wireTx f.bytes))) :=
    .head (.emit _ s) (reportStatus_phaseUpdates f _)
  have flight := (phaseFrame_of_updates reported).txInflight.trans hf
  exact (updatesIn_of_phaseUpdates reported).trans (.single ((Update.txDone f _ flight).inInstr rfl))

theorem execDevTxDone_byInstr (s : State) : ByInstr .devTxDone s (execDevTxDone s) := by
  refine .admission ?_
  cases hf : s.txInflight with
  | none => exact .next .refl
  | some f =>
    exact .ite (fun _ => .after (completeTx_updates hf) (.ofPhase (done_byPhase _))) fun _ => .next .refl

theorem writeFillers_phaseUpdates (h : Nat) (f s : State) : PhaseUpdates s (writeFillers h f s) :=
  .head (.store _ _ s) (.head (.store _ _ _) (.single (.store _ _ _)))

theorem fillSlot_phaseUpdates (h n : Nat) (s : State) : PhaseUpdates s (fillSlot h n s) :=
  .head (.store _ _ s) (.head (setDescLength_phaseUpdate .rx h n _)
    ((writeFillers_phaseUpdates h s _).trans (.single (setDescStatus_phaseUpdate .rx h _ _))))

theorem receiveFrame_updates {len : Idx} (n : Nat) (hr : s.rxReady = true) :
    Relation.ReflTransGen (UpdateIn (.devRxFrame len)) s (receiveFrame n s) := by
  have filled := fillSlot_phaseUpdates (headIndex .rx s) n s
  have ready := (phaseFrame_of_updates filled).rxReady.trans hr
  exact (updatesIn_of_phaseUpdates filled).trans (.single ((Update.rxDone _ ready).inInstr ⟨len, rfl⟩))

theorem execDevRxFrame_byInstr (len : Idx) (s : State) : ByInstr (.devRxFrame len) s (execDevRxFrame len s) := by
  have gone (u : State) : ByInstr (.devRxFrame len) u (done u.frameGone) :=
    .ofPhase (.after (.single (frameGone_phaseUpdate u)) (done_byPhase _))
  refine .admission (.guard fun _ => .ite (fun _ => ?_) fun hr => .ite (fun _ => gone s) fun _ =>
    .guard fun _ => ?_)
  · exact .ofPhase (.one (frameGone_phaseUpdate s))
  · simp only [Bool.not_eq_true, Bool.not_eq_false', Bool.and_eq_true] at hr
    exact .after (receiveFrame_updates len.toNat hr.2) (gone _)

end InInstr

/-! The instructions. -/

theorem execHwReset_byInstr (s : State) : ByInstr .hwReset s (execHwReset s) :=
  .ite (fun _ => .one ((Update.hwReset s).inInstr rfl)) fun _ => .refused _

theorem respondAlloc_phaseUpdates (a : Option Handle) (s : State) : PhaseUpdates s (s.respondAlloc a) := by
  cases a with
  | none => exact respond_phaseUpdates _ _ s
  | some h => exact respond_phaseUpdates _ _ s

theorem whenHandle_byPhase {h : Handle} {s : State} {r : Result} (hr : ByPhase s r) : ByPhase s (whenHandle h r) :=
  .guard fun _ => hr

/-- A register write that only sets registers the initialisation collaborator may set at any time. -/
theorem writeReg_setup {i : Instr} {c : AgentClass} {w : State → State} {s : State} (u : Update .setup s (w s)) :
    ByInstr i s (writeReg c (fun t => .next (w t)) s) :=
  writeReg_byInstr (.setup u)

/-- A write to zero or refused (R151, R153, R167, R169). -/
theorem zeroWrite_byInstr {i : Instr} {v : Word} {s t : State} {x : Refusal} (u : Update .setup s t) :
    ByInstr i s (if v = 0 then .next t else .refused x) :=
  .ite (fun _ => .setup u) fun _ => .refused _

theorem execSlotStatus_byPhase (r : Ring) (k : Idx) (s : State) : ByPhase s (execSlotStatus r k s) := by
  refine .admission (.guard fun _ => .guard fun _ =>
    .guard fun _ => .guard fun _ => ?_)
  exact .next (respond_phaseUpdates _ _ s)

theorem execTransmit_byPhase (b : Handle) (s : State) : ByPhase s (execTransmit b s) :=
  (startTransmit_byPhase b s).andThen (runPhases_byPhase _)

theorem execRxDrain_byPhase (s : State) : ByPhase s (execRxDrain s) := by
  intro t e
  obtain ⟨u, hu, ht⟩ := andThen_eq_next.mp e
  exact (startDrain_byPhase s u hu).trans (runDrain_byPhase _ u t ht)

theorem execIrqHandler_byPhase (s : State) : ByPhase s (execIrqHandler s) :=
  (startHandler_byPhase s).andThen (runPhases_byPhase _)

/-- What an instruction does is a sequence of updates it may make. -/
theorem exec_byInstr (i : Instr) (s : State) : ByInstr i s (exec i s) := by
  cases i
  case lock r => exact .ofPhase (.admission (lockThen_byPhase (.single (.opSet _ s)) done_byPhase))
  case unlock r => exact .ofPhase (.admission (unlockThen_byPhase done_byPhase))
  case fence => exact .ofPhase (.admission (done_byPhase s))
  case slotStatus r k => exact .ofPhase (execSlotStatus_byPhase r k s)
  case markHwOwned r k c => exact .ofPhase (.admission ((markOwned_byPhase r k.toNat c s).andThen done_byPhase))
  case installBuf r k h =>
    exact .ofPhase (.admission ((installSlot_byPhase r k.toNat (handleArg h) s).andThen
      fun u => .next (respond_phaseUpdates _ _ u)))
  case transmit b => exact .ofPhase (execTransmit_byPhase b s)
  case rxDrain => exact .ofPhase (execRxDrain_byPhase s)
  case irqHandler => exact .ofPhase (execIrqHandler_byPhase s)
  case ringInitTx n => exact execRingInitTx_byInstr n s
  case ringInitRx n => exact execRingInitRx_byInstr n s
  case rd32Icr => exact .admission (.refused _)
  case wr32Ctrl v => exact writeReg_byInstr (wrCtrl_byInstr v v s)
  case wr32Icr v => exact writeReg_byInstr (.ofPhase (wrIcr_byPhase v s))
  case wr32Ims v => exact writeReg_byInstr (wrIms_byInstr v s)
  case wr32Rctl v => exact writeReg_byInstr (wrRctl_byInstr v s)
  case wr32Tctl v => exact writeReg_byInstr (wrTctl_byInstr v s)
  case wr32Rdbal v =>
    exact writeReg_byInstr (beforeReady_byInstr fun hr => .ite (fun _ => .setup (.rxBase v _ s hr)) fun _ => .refused _)
  case wr32Rdbah v => exact writeReg_byInstr (beforeReady_byInstr fun hr => .setup (.rxBase _ v s hr))
  case wr32Rdlen v =>
    exact writeReg_byInstr (beforeReady_byInstr fun hr =>
      .ite (fun hv => .setup (.rxLength v s hr hv)) fun _ => .refused _)
  case wr32Rdh v => exact writeReg_byInstr (beforeReady_byInstr fun hr => zeroWrite_byInstr (.rxHeadZero s hr))
  case wr32Rdt v => exact writeReg_byInstr (.ofPhase (wrRdt_byPhase v s))
  case wr32Rdtr v => exact writeReg_byInstr (zeroWrite_byInstr (.rdtrZero s))
  case wr32Radv v => exact writeReg_byInstr (zeroWrite_byInstr (.radvZero s))
  case wr32Tdbal v =>
    exact writeReg_byInstr (beforeReady_byInstr fun hr => .ite (fun _ => .setup (.txBase v _ s hr)) fun _ => .refused _)
  case wr32Tdbah v => exact writeReg_byInstr (beforeReady_byInstr fun hr => .setup (.txBase _ v s hr))
  case wr32Tdlen v =>
    exact writeReg_byInstr (beforeReady_byInstr fun hr =>
      .ite (fun hv => .setup (.txLength v s hr hv)) fun _ => .refused _)
  case wr32Tdh v => exact writeReg_byInstr (beforeReady_byInstr fun hr => zeroWrite_byInstr (.txHeadZero s hr))
  case wr32Tdt v => exact writeReg_byInstr (.ofPhase (wrTdt_byPhase v s))
  case wr32Ral v =>
    exact writeReg_setup (w := fun t => { t with regs := { t.regs with ral := v } })
      (.filter v s.regs.rah s.regs.mta s)
  case wr32Rah v =>
    exact writeReg_setup (w := fun t => { t with regs := { t.regs with rah := v } })
      (.filter s.regs.ral v s.regs.mta s)
  case wr32Mta k v =>
    exact writeReg_setup (w := fun t => { t with regs := { t.regs with mta := t.regs.mta.set k.toNat v k.isLt } })
      (.filter s.regs.ral s.regs.rah (s.regs.mta.set k.toNat v k.isLt) s)
  case devTxFetch => exact execDevTxFetch_byInstr s
  case devTxDone => exact execDevTxDone_byInstr s
  case devRxFrame len => exact execDevRxFrame_byInstr len s
  case hwReset => exact execHwReset_byInstr s
  case alloc n =>
    exact .ofPhase (.admission (allocThen_byPhase fun a u => .next (respondAlloc_phaseUpdates a u)))
  case free h => exact .ofPhase (.admission (whenHandle_byPhase ((freeBuf_byPhase h s).andThen done_byPhase)))
  case append h n =>
    exact .ofPhase (.admission (whenHandle_byPhase ((appendBuf_byPhase h n.toNat s).andThen done_byPhase)))
  case deliver h => exact .ofPhase (.admission (whenHandle_byPhase ((deliverBuf_byPhase h s).andThen done_byPhase)))
  all_goals exact readReg_byInstr _ s

/-! The step. -/

/-- The result is reached by updates. -/
abbrev BySome (s : State) (r : Result) : Prop := Leads SomeUpdate s r

theorem Leads.someOfPhase {s : State} {r : Result} (h : ByPhase s r) : BySome s r :=
  h.mono fun _ _ u => ⟨.phase, u⟩

theorem exec_bySome (i : Instr) (s : State) : BySome s (exec i s) :=
  (exec_byInstr i s).mono fun _ _ => UpdateIn.some

theorem stepEvent_bySome (e : Event) (rest : List Event) (s : State) : BySome s (stepEvent e rest s) := by
  have taken (a : Agent) : Relation.ReflTransGen SomeUpdate s (s.taking a rest) :=
    .single ⟨.schedule, .taking a rest s⟩
  cases e with
  | issue a w =>
    cases hd : decode w with
    | error x => exact stepEvent_issue_of_decode_error hd a rest s ▸ .refused _
    | ok i => exact stepEvent_issue_of_decode_ok hd a rest s ▸ .after (taken a) (exec_bySome i _)
  | start a w =>
    cases hd : decode w with
    | error x => simpa only [stepEvent, hd] using .refused _
    | ok i =>
      rw [stepEvent_start_of_decode_ok hd]
      cases ho : startOnly i (s.taking a rest) with
      | none => exact .after (taken a) (exec_bySome i _)
      | some r => exact .after (taken a) (.someOfPhase (startOnly_byPhase ho))
  | proceed a => exact .after (taken a) (.someOfPhase (proceed_byPhase _))
  | prepare a h bytes => exact .after (taken a) (.someOfPhase (prepare_byPhase h bytes _))
  | mutate a r p i off bytes => exact .after (taken a) (.someOfPhase (mutate_byPhase r p i off bytes _))

/-- A step is a sequence of updates. -/
theorem step_bySome (s : State) : BySome s (step s) := by
  cases hin : s.inputs with
  | nil => exact step_of_inputs_nil hin ▸ .next .refl
  | cons e rest => exact step_of_inputs_cons hin ▸ stepEvent_bySome e rest s

/-- What every update keeps, every step keeps. -/
theorem step_keeps {P : State → Prop} (keep : ∀ s t, SomeUpdate s t → P s → P t) {s t : State} (h : P s)
    (e : step s = .next t) : P t := by
  have path := step_bySome s t e
  clear e
  induction path with
  | refl => exact h
  | tail _ u ih => exact keep _ _ u ih

end Sys2Proof.Machine
end

section
/-! PROOFS. What every step keeps (spec file 10_state.md): the canonical forms, the register forms, the ring indices,
the parameters and the outputs; what changes `failed` and the geometry of a ring. -/

namespace Sys2Proof.Machine

open Sys2Proof

/-! The canonical forms of memory, buffers and operations (R43, R48, R50). -/

/-- Memory, the live buffers and the operations in progress are in canonical form. -/
structure Canonical (s : State) : Prop where
  mem : Memory.wf s.mem = true
  bufs : bufsLegal s.cfg s.bufs = true
  ops : opsLegal s.ops = true

theorem Legal.canonical {s : State} (h : Legal s) : Canonical s := ⟨h.mem, h.bufs, h.ops⟩

theorem bufsLegal_iff {p : Config.Params} {l : List (Nat × Buffer)} :
    bufsLegal p l = true ↔ Assoc.rising l = true ∧ l.all (fun e => bufferOk p e.2) = true := by
  simp only [bufsLegal, bufferOk, Bool.and_eq_true]

theorem bufsLegal_insert {p : Config.Params} {l : List (Nat × Buffer)} {k : Nat} {b : Buffer}
    (h : bufsLegal p l = true) (hb : bufferOk p b = true) : bufsLegal p (Assoc.insert k b l) = true := by
  obtain ⟨hr, ha⟩ := bufsLegal_iff.mp h
  exact bufsLegal_iff.mpr ⟨Assoc.rising_insert k b hr, Assoc.all_insert hb ha⟩

theorem bufsLegal_erase {p : Config.Params} {l : List (Nat × Buffer)} (k : Nat) (h : bufsLegal p l = true) :
    bufsLegal p (Assoc.erase k l) = true := by
  obtain ⟨hr, ha⟩ := bufsLegal_iff.mp h
  exact bufsLegal_iff.mpr ⟨Assoc.rising_erase k hr, Assoc.all_erase ha⟩

theorem bufsLegal_filter {p : Config.Params} {l : List (Nat × Buffer)} (q : Nat × Buffer → Bool)
    (h : bufsLegal p l = true) : bufsLegal p (l.filter q) = true := by
  obtain ⟨hr, ha⟩ := bufsLegal_iff.mp h
  refine bufsLegal_iff.mpr ⟨Assoc.risingFrom_filter q hr, List.all_eq_true.mpr fun e he => ?_⟩
  exact List.all_eq_true.mp ha e (List.mem_filter.mp he).1

/-- A buffer that CTRL.RST leaves live keeps its handle, length and area, and is in no pool (U19). -/
theorem rstBuffer_eq_some {s : State} {p : Config.Params} {e f : Nat × Buffer} (h : rstBuffer s e = some f) :
    f.1 = e.1 ∧ (bufferOk p e.2 = true → bufferOk p f.2 = true) := by
  unfold rstBuffer at h
  simp only at h
  split at h
  · split at h
    · cases h
    · next hp =>
      cases h
      refine ⟨rfl, fun ok => ?_⟩
      exact bufferOk_iff.mpr ⟨hp, (bufferOk_iff.mp ok).2⟩
  · cases h
    exact ⟨rfl, id⟩

theorem bufsLegal_rstBuffer {p : Config.Params} {l : List (Nat × Buffer)} (s : State) (h : bufsLegal p l = true) :
    bufsLegal p (l.filterMap (rstBuffer s)) = true := by
  obtain ⟨hr, ha⟩ := bufsLegal_iff.mp h
  have keys (e f : Nat × Buffer) (hf : rstBuffer s e = some f) : f.1 = e.1 := (rstBuffer_eq_some (p := p) hf).1
  refine bufsLegal_iff.mpr ⟨Assoc.risingFrom_filterMap _ keys hr, List.all_eq_true.mpr fun f hf => ?_⟩
  obtain ⟨e, he, hef⟩ := List.mem_filterMap.mp hf
  exact (rstBuffer_eq_some hef).2 (List.all_eq_true.mp ha e he)

theorem Canonical.of_same {s t : State} (h : Canonical s) (hm : t.mem = s.mem) (hc : t.cfg = s.cfg)
    (hb : t.bufs = s.bufs) (ho : t.ops = s.ops) : Canonical t :=
  ⟨hm ▸ h.mem, hc ▸ hb ▸ h.bufs, ho ▸ h.ops⟩

/-- Every elementary update keeps the canonical forms. -/
theorem SomeUpdate.keeps_canonical {s t : State} (u : SomeUpdate s t) (h : Canonical s) : Canonical t := by
  obtain ⟨k, u⟩ := u
  cases u with
  | store a bs => exact ⟨Memory.wf_writeBytes a bs h.mem, h.bufs, h.ops⟩
  | opSet o => exact ⟨h.mem, h.bufs, Assoc.rising_insert _ o h.ops⟩
  | opEnd => exact ⟨h.mem, h.bufs, Assoc.rising_erase _ h.ops⟩
  | buffer b buf _ ok =>
    have listed := (bufsLegal_iff.mp h.bufs).2
    exact ⟨h.mem, bufsLegal_insert h.bufs (ok fun c hc => Assoc.all_lookup listed hc), h.ops⟩
  | bufferGone b => exact ⟨h.mem, bufsLegal_erase _ h.bufs, h.ops⟩
  | abandon => exact ⟨h.mem, bufsLegal_filter _ h.bufs, h.ops⟩
  | blockReset => exact ⟨h.mem, bufsLegal_rstBuffer s h.bufs, h.ops⟩
  | hwReset => exact ⟨Memory.wf_ofCells _, rfl, rfl⟩
  | lock r l => exact h.of_same (by simp) (by simp) (by simp) (by simp)
  | slots r l => cases r <;> exact h.of_same rfl rfl rfl rfl
  | _ => exact h.of_same rfl rfl rfl rfl

/-- Settles O52: each elementary update keeps the canonical forms, and a step is a sequence of them. -/
theorem stepKeepsCanonicalForms : Obligations.StepKeepsCanonicalForms := by
  unfold Obligations.StepKeepsCanonicalForms
  intro s t legal e
  obtain ⟨hm, hb, ho⟩ := step_keeps (fun _ _ => SomeUpdate.keeps_canonical) legal.canonical e
  exact ⟨hm, hb, ho⟩

/-! The ring indices (R45, R46, R287 a and d). -/

/-- The indices of both rings are right. -/
structure IndicesLegal (s : State) : Prop where
  tx : TxLegal s
  rx : RxLegal s

theorem TxLegal.of_same {s t : State} (h : TxLegal s) (hlen : t.regs.tdlen = s.regs.tdlen)
    (hhead : t.regs.tdh = s.regs.tdh) (htail : t.regs.tdt = s.regs.tdt) (hp : t.txPending = s.txPending)
    (hf : t.txInflight = s.txInflight) (hr : t.txReady = s.txReady) : TxLegal t where
  ring := by simpa only [ringSize, ringBytes, headIndex, tailIndex, hlen, hhead, htail, hp, hr] using h.ring
  idle := by simpa only [hp, hf, hr] using h.idle
  flight := by simpa only [headIndex, hhead, hp, hf] using h.flight

theorem RxLegal.of_same {s t : State} (h : RxLegal s) (hlen : t.regs.rdlen = s.regs.rdlen)
    (hhead : t.regs.rdh = s.regs.rdh) (htail : t.regs.rdt = s.regs.rdt) (hr : t.rxReady = s.rxReady) : RxLegal t where
  ring := by simpa only [ringSize, ringBytes, headIndex, tailIndex, hlen, hhead, htail, hr] using h.ring

/-- Before construction the transmit registers may hold anything: nothing is pending or in flight. -/
theorem TxLegal.of_idle {s t : State} (h : TxLegal s) (hr : s.txReady = false) (hr' : t.txReady = false)
    (hp : t.txPending = s.txPending) (hf : t.txInflight = s.txInflight) : TxLegal t := by
  obtain ⟨pending, flight⟩ := h.idle hr
  refine ⟨fun e => ?_, fun _ => ⟨hp.trans pending, hf.trans flight⟩, fun f e => ?_⟩
  · rw [hr'] at e; cases e
  · rw [hf, flight] at e; cases e

theorem RxLegal.of_unready {s : State} (hr : s.rxReady = false) : RxLegal s := by
  refine ⟨fun e => ?_⟩
  rw [hr] at e
  cases e

/-- The distance from `a` to `b` leads from `a` to `b` (R180). -/
theorem add_ringDist_mod {a b n : Nat} (ha : a < n) (hb : b < n) : (a + ringDist a b n) % n = b := by
  unfold ringDist
  rw [Nat.mod_eq_of_lt ha, Nat.add_mod_mod, show a + (b + (n - a)) = b + n by omega, Nat.add_mod_right,
    Nat.mod_eq_of_lt hb]

/-- A tail moved forward stays as far from the head as slots are pending. -/
theorem tail_after_commit {head pending tail v n : Nat} (h : tail = (head + pending) % n) (ht : tail < n) (hv : v < n) :
    v = (head + (pending + ringDist tail v n)) % n := by
  have reach := add_ringDist_mod ht hv
  rw [← Nat.add_assoc, ← Nat.mod_add_mod, ← h, reach]

/-- A head moved on by one slot leaves the tail where it is, with one slot less pending. -/
theorem tail_after_done {head pending n : Nat} (hp : 0 < pending) :
    (head + pending) % n = (ringNext head n + (pending - 1)) % n := by
  rw [ringNext, Nat.mod_add_mod, Nat.add_assoc, Nat.add_sub_cancel' hp]

theorem TxLegal.tail_lt {s : State} (h : TxLegal s) (hr : s.txReady = true) : tailIndex .tx s < ringSize .tx s := by
  obtain ⟨size, -, -, tail⟩ := h.ring hr
  rw [tail]
  exact Nat.mod_lt _ (by omega)

/-- What is in flight is a pending slot of a constructed ring. -/
theorem TxLegal.ready_of_flight {s : State} (h : TxLegal s) {f : Inflight} (hf : s.txInflight = some f) :
    s.txReady = true := by
  cases hr : s.txReady with
  | true => rfl
  | false => rw [(h.idle hr).2] at hf; cases hf

theorem TxLegal.commit {s : State} (h : TxLegal s) (v : Word) (hr : s.txReady = true)
    (hi : indexField v < ringSize .tx s)
    (hp : s.txPending + ringDist (tailIndex .tx s) (indexField v) (ringSize .tx s) ≤ ringSize .tx s) :
    TxLegal { s with
      regs := { s.regs with tdt := v }
      txPending := s.txPending + ringDist (tailIndex .tx s) (indexField v) (ringSize .tx s) } where
  ring := by
    intro _
    obtain ⟨size, head, -, tail⟩ := h.ring hr
    exact ⟨size, head, hp, tail_after_commit tail (h.tail_lt hr) hi⟩
  idle := by intro e; rw [hr] at e; cases e
  flight := by
    intro f hf
    obtain ⟨pending, slot⟩ := h.flight f hf
    exact ⟨Nat.add_pos_left pending _, slot⟩

theorem TxLegal.latch {s : State} (h : TxLegal s) (f : Inflight) (hp : 0 < s.txPending)
    (hf : f.slot.toNat = headIndex .tx s) : TxLegal { s with txInflight := some f } where
  ring := h.ring
  idle := by
    intro hr
    have := (h.idle hr).1
    omega
  flight := by
    intro g hg
    cases hg
    exact ⟨hp, hf⟩

theorem TxLegal.done {s : State} (h : TxLegal s) {f : Inflight} (hf : s.txInflight = some f) :
    TxLegal { s with
      regs := { s.regs with tdh := indexWord (ringNext f.slot.toNat (ringSize .tx s)) }
      txPending := s.txPending - 1, txInflight := none } where
  ring := by
    intro _
    obtain ⟨size, head, pending, tail⟩ := h.ring (h.ready_of_flight hf)
    obtain ⟨some, slot⟩ := h.flight f hf
    rw [slot]
    have lt : ringNext (headIndex .tx s) (ringSize .tx s) < ringSize .tx s := ringNext_lt (by omega)
    have field := indexField_indexWord (lt.trans (ringSize_lt .tx s))
    have next : tailIndex .tx s =
        (indexField (indexWord (ringNext (headIndex .tx s) (ringSize .tx s))) + (s.txPending - 1))
          % ringSize .tx s := by
      rw [tail, tail_after_done some, field]
    exact ⟨size, field.trans_lt lt, (Nat.sub_le _ _).trans pending, next⟩
  idle := by
    intro (e : s.txReady = false)
    cases e.symm.trans (h.ready_of_flight hf)
  flight := by intro g hg; cases hg

theorem TxLegal.built {s : State} (l : List (Option Handle)) (hn : 8 ≤ ringSize .tx s) :
    TxLegal { s with
      regs := { s.regs with tdh := 0, tdt := 0 }
      txBuf := l, txPending := 0, txInflight := none, txReady := true } where
  ring := fun _ => ⟨hn, show 0 < ringSize .tx s by omega, Nat.zero_le _, (Nat.zero_mod _).symm⟩
  idle := by intro e; cases e
  flight := by intro g hg; cases hg

theorem TxLegal.of_reset {s : State} (hr : s.txReady = false) (hp : s.txPending = 0) (hf : s.txInflight = none) :
    TxLegal s := by
  refine ⟨fun e => ?_, fun _ => ⟨hp, hf⟩, fun f e => ?_⟩
  · rw [hr] at e; cases e
  · rw [hf] at e; cases e

theorem RxLegal.tailSet {s : State} (h : RxLegal s) (v : Word) (hi : indexField v < ringSize .rx s) :
    RxLegal { s with regs := { s.regs with rdt := v } } := by
  refine ⟨fun hr => ?_⟩
  obtain ⟨size, head, -⟩ := h.ring hr
  exact ⟨size, head, hi⟩

theorem RxLegal.built {s : State} (v : Word) (hn : 8 ≤ ringSize .rx s) (hi : indexField v < ringSize .rx s) :
    RxLegal { s with regs := { s.regs with rdh := 0, rdt := v }, rxReady := true } :=
  ⟨fun _ => ⟨hn, show 0 < ringSize .rx s by omega, hi⟩⟩

theorem RxLegal.done {s : State} (h : RxLegal s) (hr : s.rxReady = true) (icr : Word) :
    RxLegal { s with regs := { s.regs with
      rdh := indexWord (ringNext (headIndex .rx s) (ringSize .rx s)), icr := icr } } := by
  obtain ⟨size, -, tail⟩ := h.ring hr
  have lt : ringNext (headIndex .rx s) (ringSize .rx s) < ringSize .rx s := ringNext_lt (by omega)
  exact ⟨fun _ => ⟨size, (indexField_indexWord (lt.trans (ringSize_lt .rx s))).trans_lt lt, tail⟩⟩

/-- Every elementary update keeps the transmit indices right. -/
theorem SomeUpdate.keeps_txLegal {s t : State} (u : SomeUpdate s t) (h : TxLegal s) : TxLegal t := by
  obtain ⟨k, u⟩ := u
  cases u with
  | txTailZero _ hr => exact h.of_idle hr hr rfl rfl
  | commit v _ hr hv hi hp => exact h.commit v hr hi hp
  | latch f _ hp hf => exact h.latch f hp hf
  | txLength v _ hr hv => exact h.of_idle hr hr rfl rfl
  | txHeadZero _ hr => exact h.of_idle hr hr rfl rfl
  | txBuilt l _ hr hn => exact .built l hn
  | txDone f _ hf => exact h.done hf
  | blockReset => exact .of_reset rfl rfl rfl
  | hwReset => exact .of_reset rfl rfl rfl
  | lock r l => cases r <;> exact h.of_same rfl rfl rfl rfl rfl rfl
  | slots r l => cases r <;> exact h.of_same rfl rfl rfl rfl rfl rfl
  | _ => exact h.of_same rfl rfl rfl rfl rfl rfl

/-- Every elementary update keeps the receive indices right. -/
theorem SomeUpdate.keeps_rxLegal {s t : State} (u : SomeUpdate s t) (h : RxLegal s) : RxLegal t := by
  obtain ⟨k, u⟩ := u
  cases u with
  | rxTail v _ hv hi => exact h.tailSet v hi
  | rxLength v _ hr hv => exact .of_unready hr
  | rxHeadZero _ hr => exact .of_unready hr
  | rxBuilt v _ hr hn hv hi => exact .built v hn hi
  | rxDone _ hr => exact h.done hr _
  | blockReset => exact .of_unready rfl
  | hwReset => exact .of_unready rfl
  | lock r l => cases r <;> exact h.of_same rfl rfl rfl rfl
  | slots r l => cases r <;> exact h.of_same rfl rfl rfl rfl
  | _ => exact h.of_same rfl rfl rfl rfl

theorem SomeUpdate.keeps_indices {s t : State} (u : SomeUpdate s t) (h : IndicesLegal s) : IndicesLegal t :=
  ⟨u.keeps_txLegal h.tx, u.keeps_rxLegal h.rx⟩

/-- Settles O54: each elementary update keeps the indices right, and a step is a sequence of them. -/
theorem stepKeepsRingIndices : Obligations.StepKeepsRingIndices := by
  unfold Obligations.StepKeepsRingIndices
  intro s t legal e
  obtain ⟨tx, rx⟩ := step_keeps (fun _ _ => SomeUpdate.keeps_indices) ⟨legal.tx, legal.rx⟩ e
  exact ⟨tx, rx⟩

/-! The register forms (R22 to R35, R173, R175). -/

/-- `RegsLegal`, register by register. -/
structure ReservedClear (g : Regs) : Prop where
  ctrl : g.ctrl = 0
  icr : g.icr &&& ~~~rxt0 = 0
  ims : g.ims &&& ~~~rxt0 = 0
  rctl : g.rctl &&& ~~~ctlEn = 0
  tctl : g.tctl &&& ~~~ctlEn = 0
  tdlen : lengthOk g.tdlen = true
  rdlen : lengthOk g.rdlen = true
  tdh : indexOk g.tdh = true
  tdt : indexOk g.tdt = true
  rdh : indexOk g.rdh = true
  rdt : indexOk g.rdt = true
  rdtr : g.rdtr = 0
  radv : g.radv = 0

theorem regsLegal_iff {g : Regs} : RegsLegal g = true ↔ ReservedClear g := by
  simp only [RegsLegal, Bool.and_eq_true, beq_iff_eq, and_assoc]
  constructor
  · rintro ⟨ctrl, icr, ims, rctl, tctl, tdlen, rdlen, tdh, tdt, rdh, rdt, rdtr, radv⟩
    exact ⟨ctrl, icr, ims, rctl, tctl, tdlen, rdlen, tdh, tdt, rdh, rdt, rdtr, radv⟩
  · rintro ⟨ctrl, icr, ims, rctl, tctl, tdlen, rdlen, tdh, tdt, rdh, rdt, rdtr, radv⟩
    exact ⟨ctrl, icr, ims, rctl, tctl, tdlen, rdlen, tdh, tdt, rdh, rdt, rdtr, radv⟩

/-- The reserved bits are 0, and each EN bit is set only with its ring constructed. -/
structure RegisterForms (s : State) : Prop where
  regs : ReservedClear s.regs
  rx : enSet s.regs.rctl = true → s.rxReady = true
  tx : enSet s.regs.tctl = true → s.txReady = true

theorem RegisterForms.enables {s : State} (h : RegisterForms s) : enablesLegal s = true := by
  obtain ⟨regs, rx, tx⟩ := h
  simp only [enablesLegal, regs.rdtr, regs.radv, Bool.and_eq_true, Bool.or_eq_true, Bool.not_eq_true', BEq.rfl,
    and_true]
  exact ⟨(Bool.eq_false_or_eq_true _).symm.imp_right rx, (Bool.eq_false_or_eq_true _).symm.imp_right tx⟩

theorem Legal.registerForms {s : State} (h : Legal s) : RegisterForms s := by
  have enables := h.enables
  simp only [enablesLegal, Bool.and_eq_true, Bool.or_eq_true, Bool.not_eq_true'] at enables
  obtain ⟨rx, tx⟩ := enables
  refine ⟨regsLegal_iff.mp h.regs, fun e => ?_, fun e => ?_⟩
  · obtain ⟨⟨ready, -⟩, -⟩ := rx.resolve_left (by simp [e])
    exact ready
  · exact tx.resolve_left (by simp [e])

theorem RegisterForms.of_same {s t : State} (h : RegisterForms s) (hg : t.regs = s.regs) (ht : t.txReady = s.txReady)
    (hr : t.rxReady = s.rxReady) : RegisterForms t :=
  ⟨hg ▸ h.regs, hg ▸ hr ▸ h.rx, hg ▸ ht ▸ h.tx⟩

theorem clearCauses_reserved {icr : Word} (v : Word) (h : icr &&& ~~~rxt0 = 0) :
    clearCauses icr v &&& ~~~rxt0 = 0 := by
  rw [clearCauses, BitVec.and_assoc, BitVec.and_comm (~~~v), ← BitVec.and_assoc, h]
  exact BitVec.zero_and

theorem or_reserved {x v : Word} (h : x &&& ~~~rxt0 = 0) (hv : v &&& ~~~rxt0 = 0) : (x ||| v) &&& ~~~rxt0 = 0 := by
  rw [BitVec.and_comm, BitVec.and_or_distrib_left, BitVec.and_comm, h, BitVec.and_comm, hv]
  rfl

theorem indexOk_zero : indexOk 0 = true := by decide

theorem lengthOk_zero : lengthOk 0 = true := by decide

theorem enSet_zero : enSet 0 = false := by decide

/-- A control register's value has no bit but EN (R25, R26). -/
theorem control_reserved {v : Word} {p : Prop} (h : v = 0 ∨ (v = ctlEn ∧ p)) : v &&& ~~~ctlEn = 0 := by
  rcases h with rfl | ⟨rfl, -⟩ <;> decide

/-- A control register's value that sets EN is not 0. -/
theorem control_enabled {v : Word} {p : Prop} (h : v = 0 ∨ (v = ctlEn ∧ p)) (e : enSet v = true) : p := by
  rcases h with rfl | ⟨-, hp⟩
  · rw [enSet_zero] at e
    cases e
  · exact hp

theorem reservedClear_regsAfterReset (d : Nat) : ReservedClear (regsAfterReset d) where
  ctrl := rfl
  icr := BitVec.zero_and
  ims := BitVec.zero_and
  rctl := BitVec.zero_and
  tctl := BitVec.zero_and
  tdlen := lengthOk_zero
  rdlen := lengthOk_zero
  tdh := indexOk_zero
  tdt := indexOk_zero
  rdh := indexOk_zero
  rdt := indexOk_zero
  rdtr := rfl
  radv := rfl

theorem RegisterForms.of_reset {s : State} {d : Nat} (h : s.regs = regsAfterReset d) : RegisterForms s := by
  have disabled : ¬ enSet 0 = true := by decide
  refine ⟨h ▸ reservedClear_regsAfterReset d, fun e => absurd ?_ disabled, fun e => absurd ?_ disabled⟩
  · rw [h] at e; exact e
  · rw [h] at e; exact e

/-- A head that a device event moves on is an index (R29, R33). -/
theorem indexOk_ringNext (i : Nat) (r : Ring) {s : State} (h : 8 ≤ ringSize r s) :
    indexOk (indexWord (ringNext i (ringSize r s))) = true := by
  have lt : ringNext i (ringSize r s) < ringSize r s := ringNext_lt (by omega)
  exact indexOk_indexWord (lt.trans (ringSize_lt r s))

/-- Every elementary update keeps the register forms where the indices are right. -/
theorem SomeUpdate.keeps_registerForms {s t : State} (u : SomeUpdate s t) (hi : IndicesLegal s)
    (h : RegisterForms s) : RegisterForms t := by
  obtain ⟨k, u⟩ := u
  cases u with
  | acknowledge v => exact ⟨{ h.regs with icr := clearCauses_reserved v h.regs.icr }, h.rx, h.tx⟩
  | txTailZero => exact ⟨{ h.regs with tdt := indexOk_zero }, h.rx, h.tx⟩
  | commit v _ _ hv => exact ⟨{ h.regs with tdt := hv }, h.rx, h.tx⟩
  | rxTail v _ hv => exact ⟨{ h.regs with rdt := hv }, h.rx, h.tx⟩
  | mask v _ hv => exact ⟨{ h.regs with ims := or_reserved h.regs.ims hv }, h.rx, h.tx⟩
  | rxEnable v _ hv => exact ⟨{ h.regs with rctl := control_reserved hv }, fun e => (control_enabled hv e).1, h.tx⟩
  | txEnable v _ hv => exact ⟨{ h.regs with tctl := control_reserved hv }, h.rx, control_enabled hv⟩
  | rdtrZero => exact ⟨{ h.regs with rdtr := rfl }, h.rx, h.tx⟩
  | radvZero => exact ⟨{ h.regs with radv := rfl }, h.rx, h.tx⟩
  | filter => exact ⟨{ h.regs with }, h.rx, h.tx⟩
  | txBase => exact ⟨{ h.regs with }, h.rx, h.tx⟩
  | txLength v _ _ hv => exact ⟨{ h.regs with tdlen := hv }, h.rx, h.tx⟩
  | txHeadZero => exact ⟨{ h.regs with tdh := indexOk_zero }, h.rx, h.tx⟩
  | rxBase => exact ⟨{ h.regs with }, h.rx, h.tx⟩
  | rxLength v _ _ hv => exact ⟨{ h.regs with rdlen := hv }, h.rx, h.tx⟩
  | rxHeadZero => exact ⟨{ h.regs with rdh := indexOk_zero }, h.rx, h.tx⟩
  | txBuilt => exact ⟨{ h.regs with tdh := indexOk_zero, tdt := indexOk_zero }, h.rx, fun _ => rfl⟩
  | rxBuilt v _ _ _ hv => exact ⟨{ h.regs with rdh := indexOk_zero, rdt := hv }, fun _ => rfl, h.tx⟩
  | txDone f _ hf =>
    obtain ⟨size, -⟩ := hi.tx.ring (hi.tx.ready_of_flight hf)
    exact ⟨{ h.regs with tdh := indexOk_ringNext _ .tx size }, h.rx, h.tx⟩
  | rxDone _ hr =>
    obtain ⟨size, -⟩ := hi.rx.ring hr
    have raised := or_reserved h.regs.icr (v := 0x80) (by decide)
    exact ⟨{ h.regs with rdh := indexOk_ringNext _ .rx size, icr := raised }, h.rx, h.tx⟩
  | blockReset => exact .of_reset rfl
  | hwReset => exact .of_reset rfl
  | lock r l => cases r <;> exact h.of_same rfl rfl rfl
  | slots r l => cases r <;> exact h.of_same rfl rfl rfl
  | _ => exact h.of_same rfl rfl rfl

/-- The indices are right and the registers in their forms: what every update keeps together. -/
def RingsAndRegisters (s : State) : Prop := IndicesLegal s ∧ RegisterForms s

theorem SomeUpdate.keeps_ringsAndRegisters {s t : State} (u : SomeUpdate s t) (h : RingsAndRegisters s) :
    RingsAndRegisters t :=
  ⟨u.keeps_indices h.1, u.keeps_registerForms h.1 h.2⟩

/-- Settles O53: each elementary update keeps the register forms, those of the device because the indices are right,
and a step is a sequence of them. -/
theorem stepKeepsRegisterForms : Obligations.StepKeepsRegisterForms := by
  unfold Obligations.StepKeepsRegisterForms
  intro s t legal e
  obtain ⟨-, forms⟩ : RingsAndRegisters t :=
    step_keeps (fun _ _ => SomeUpdate.keeps_ringsAndRegisters) ⟨⟨legal.tx, legal.rx⟩, legal.registerForms⟩ e
  exact ⟨regsLegal_iff.mpr forms.regs, forms.enables⟩

/-! Parameters and outputs (R53, R257). -/

/-- From `s` to `t` the parameters stay and no output is taken back. -/
structure Recorded (s t : State) : Prop where
  cfg : t.cfg = s.cfg
  out : s.out <+: t.out

theorem Recorded.trans {s t u : State} (h : Recorded s t) (k : Recorded t u) : Recorded s u :=
  ⟨k.cfg.trans h.cfg, h.out.trans k.out⟩

theorem SomeUpdate.recorded {s t : State} (u : SomeUpdate s t) : Recorded s t := by
  obtain ⟨k, u⟩ := u
  cases k with
  | phase => exact ⟨u.phaseFrame.cfg, u.phaseFrame.out⟩
  | _ => cases u <;> exact ⟨rfl, List.prefix_refl _⟩

/-- Settles O59: no elementary update writes the parameters or takes an output back. -/
theorem parametersAreFixedAndOutputsGrow : Obligations.ParametersAreFixedAndOutputsGrow := by
  unfold Obligations.ParametersAreFixedAndOutputsGrow
  intro s t e
  obtain ⟨cfg, out⟩ : Recorded s t :=
    step_keeps (fun _ _ u h => h.trans u.recorded) ⟨rfl, List.prefix_refl _⟩ e
  exact ⟨cfg, out⟩

/-! Failure (R49, R321). -/

/-- What an instruction keeps of the state it starts from, where each of its updates does. -/
theorem exec_keeps {P : State → Prop} {i : Instr} (keep : ∀ s t, UpdateIn i s t → P s → P t) {s t : State}
    (h : P s) (e : exec i s = .next t) : P t := by
  have path := exec_byInstr i s t e
  clear e
  induction path with
  | refl => exact h
  | tail _ u ih => exact keep _ _ u ih

theorem Update.failed_eq {k : UpdateKind} {s t : State} (u : Update k s t) (hf : k ≠ .failure) (hr : k ≠ .hwReset) :
    t.failed = s.failed := by
  cases k with
  | phase => exact u.phaseFrame.failed
  | failure => exact absurd rfl hf
  | hwReset => exact absurd rfl hr
  | _ => cases u <;> rfl

/-- From `s` to `t` instruction `i` leaves `failed`, or is a construction and sets it. -/
def FailsOnlyInConstruction (i : Instr) (s t : State) : Prop :=
  t.failed = s.failed ∨ (t.failed = true ∧ ∃ n, i = .ringInitTx n ∨ i = .ringInitRx n)

theorem UpdateIn.failed {i : Instr} (hi : i ≠ .hwReset) {s t : State} (u : UpdateIn i s t) :
    FailsOnlyInConstruction i s t := by
  obtain ⟨k, hk, u⟩ := u
  cases k with
  | failure =>
    cases u
    exact .inr ⟨rfl, hk⟩
  | hwReset => exact absurd hk hi
  | _ => exact .inl (u.failed_eq nofun nofun)

theorem exec_hwReset_eq_next {s t : State} : exec .hwReset s = .next t ↔ s.issuer = .env ∧ hwReset s = t := by
  change execHwReset s = .next t ↔ _
  unfold execHwReset
  by_cases h : s.issuer = .env <;> simp [h]

theorem FailsOnlyInConstruction.trans {i : Instr} {s t u : State} (h : FailsOnlyInConstruction i s t)
    (k : FailsOnlyInConstruction i t u) : FailsOnlyInConstruction i s u := by
  rcases k with same | fails
  · rwa [FailsOnlyInConstruction, same]
  · exact .inr fails

theorem exec_failed {i : Instr} (hi : i ≠ .hwReset) {s t : State} (e : exec i s = .next t) :
    FailsOnlyInConstruction i s t :=
  exec_keeps (P := FailsOnlyInConstruction i s) (fun _ _ u h => h.trans (u.failed hi)) (.inl rfl) e

/-- Settles O56: of an instruction's updates only a construction's failure and HW_RESET write `failed`, and of a
phase's none. -/
theorem failedChangesOnlyByConstructionAndReset : Obligations.FailedChangesOnlyByConstructionAndReset := by
  unfold Obligations.FailedChangesOnlyByConstructionAndReset
  refine ⟨fun i s t e => ?_, fun s t e => (phaseFrame_of_updates (proceed_byPhase s t e)).failed⟩
  by_cases hi : i = .hwReset
  · subst hi
    obtain ⟨-, rfl⟩ := exec_hwReset_eq_next.mp e
    exact .inr (.inl ⟨rfl, rfl⟩)
  rcases exec_failed hi e with same | ⟨fails, construction⟩
  · exact .inl same
  cases hf : s.failed with
  | true => exact .inl fails
  | false => exact .inr (.inr ⟨rfl, fails, construction⟩)

/-! Geometry (R49, R335, R353). -/

/-- What a constructed transmit ring keeps from `s` to `t`; its head where no device event moves it. -/
structure TxGeometrySame (i : Instr) (s t : State) : Prop where
  ready : t.txReady = true
  low : t.regs.tdbal = s.regs.tdbal
  high : t.regs.tdbah = s.regs.tdbah
  length : t.regs.tdlen = s.regs.tdlen
  head : i ≠ .devTxDone → t.regs.tdh = s.regs.tdh

/-- What a constructed receive ring keeps from `s` to `t`; its head where no device event moves it. -/
structure RxGeometrySame (i : Instr) (s t : State) : Prop where
  ready : t.rxReady = true
  low : t.regs.rdbal = s.regs.rdbal
  high : t.regs.rdbah = s.regs.rdbah
  length : t.regs.rdlen = s.regs.rdlen
  head : (∀ len, i ≠ .devRxFrame len) → t.regs.rdh = s.regs.rdh

theorem PhaseFrame.txGeometry {s t : State} (h : PhaseFrame s t) (i : Instr) (hr : s.txReady = true) :
    TxGeometrySame i s t := by
  refine ⟨h.txReady.trans hr, ?_, ?_, ?_, fun _ => ?_⟩ <;> rw [h.regs]

theorem PhaseFrame.rxGeometry {s t : State} (h : PhaseFrame s t) (i : Instr) (hr : s.rxReady = true) :
    RxGeometrySame i s t := by
  refine ⟨h.rxReady.trans hr, ?_, ?_, ?_, fun _ => ?_⟩ <;> rw [h.regs]

theorem PhaseFrame.ringBase {s t : State} (h : PhaseFrame s t) (r : Ring) : ringBase r t = ringBase r s := by
  cases r <;> simp only [Machine.ringBase] <;> rw [h.regs]

section Geometry

variable {i : Instr} {s t u : State}

theorem TxGeometrySame.trans (h : TxGeometrySame i s t) (k : TxGeometrySame i t u) : TxGeometrySame i s u :=
  ⟨k.ready, k.low.trans h.low, k.high.trans h.high, k.length.trans h.length,
    fun hi => (k.head hi).trans (h.head hi)⟩

theorem RxGeometrySame.trans (h : RxGeometrySame i s t) (k : RxGeometrySame i t u) : RxGeometrySame i s u :=
  ⟨k.ready, k.low.trans h.low, k.high.trans h.high, k.length.trans h.length,
    fun hi => (k.head hi).trans (h.head hi)⟩

/-- No update of an instruction but a reset's changes the geometry of a constructed transmit ring. -/
theorem UpdateIn.txGeometry (hi : i ≠ .hwReset) (hc : ∀ v, i ≠ .wr32Ctrl v) (w : UpdateIn i s t)
    (hr : s.txReady = true) : TxGeometrySame i s t := by
  obtain ⟨k, hk, w⟩ := w
  have built (h : s.txReady = false) : False := by rw [hr] at h; cases h
  cases k with
  | phase => exact w.phaseFrame.txGeometry i hr
  | txHead => cases w; exact ⟨hr, rfl, rfl, rfl, fun h => absurd hk h⟩
  | blockReset => obtain ⟨v, rfl⟩ := hk; exact absurd rfl (hc v)
  | hwReset => exact absurd hk hi
  | schedule => exact hk.elim
  | setup =>
    cases w with
    | txBase _ _ _ h => exact (built h).elim
    | txLength _ _ h => exact (built h).elim
    | txHeadZero _ h => exact (built h).elim
    | txBuilt _ _ h => exact (built h).elim
    | _ => exact ⟨hr, rfl, rfl, rfl, fun _ => rfl⟩
  | _ => cases w; exact ⟨hr, rfl, rfl, rfl, fun _ => rfl⟩

/-- No update of an instruction but a reset's changes the geometry of a constructed receive ring. -/
theorem UpdateIn.rxGeometry (hi : i ≠ .hwReset) (hc : ∀ v, i ≠ .wr32Ctrl v) (w : UpdateIn i s t)
    (hr : s.rxReady = true) : RxGeometrySame i s t := by
  obtain ⟨k, hk, w⟩ := w
  have built (h : s.rxReady = false) : False := by rw [hr] at h; cases h
  cases k with
  | phase => exact w.phaseFrame.rxGeometry i hr
  | rxHead => obtain ⟨len, rfl⟩ := hk; cases w; exact ⟨hr, rfl, rfl, rfl, fun h => absurd rfl (h len)⟩
  | blockReset => obtain ⟨v, rfl⟩ := hk; exact absurd rfl (hc v)
  | hwReset => exact absurd hk hi
  | schedule => exact hk.elim
  | setup =>
    cases w with
    | rxBase _ _ _ h => exact (built h).elim
    | rxLength _ _ h => exact (built h).elim
    | rxHeadZero _ h => exact (built h).elim
    | rxBuilt _ _ h => exact (built h).elim
    | _ => exact ⟨hr, rfl, rfl, rfl, fun _ => rfl⟩
  | _ => cases w; exact ⟨hr, rfl, rfl, rfl, fun _ => rfl⟩

theorem exec_txGeometry (hi : i ≠ .hwReset) (hc : ∀ v, i ≠ .wr32Ctrl v) (hr : s.txReady = true)
    (e : exec i s = .next t) : TxGeometrySame i s t :=
  exec_keeps (P := TxGeometrySame i s) (fun _ _ w h => h.trans (w.txGeometry hi hc h.ready))
    ⟨hr, rfl, rfl, rfl, fun _ => rfl⟩ e

theorem exec_rxGeometry (hi : i ≠ .hwReset) (hc : ∀ v, i ≠ .wr32Ctrl v) (hr : s.rxReady = true)
    (e : exec i s = .next t) : RxGeometrySame i s t :=
  exec_keeps (P := RxGeometrySame i s) (fun _ _ w h => h.trans (w.rxGeometry hi hc h.ready))
    ⟨hr, rfl, rfl, rfl, fun _ => rfl⟩ e

end Geometry

/-- Settles O57: the updates that write geometry are guarded by an unconstructed ring, and a head's by its device
event. -/
theorem geometryIsImmutable : Obligations.GeometryIsImmutable := by
  unfold Obligations.GeometryIsImmutable
  refine ⟨fun i s t e hi hc => ⟨fun hr => ?_, fun hr => ?_⟩, fun s t e => ?_⟩
  · obtain ⟨ready, low, high, length, head⟩ := exec_txGeometry hi hc hr e
    exact ⟨ready, low, high, length, head⟩
  · obtain ⟨ready, low, high, length, head⟩ := exec_rxGeometry hi hc hr e
    exact ⟨ready, low, high, length, head⟩
  · have frame := phaseFrame_of_updates (proceed_byPhase s t e)
    refine ⟨frame.txReady, frame.rxReady, frame.ringBase .tx, frame.ringBase .rx, ?_, ?_, ?_, ?_⟩ <;>
      rw [frame.regs]

end Sys2Proof.Machine
end

section
/-! PROOFS. Who may issue what, the cause and mask writes, software's own writes, and reset (spec file 10_state.md). -/

namespace Sys2Proof.Machine

open Sys2Proof

/-- A result that is no next state and no fault is a refusal. -/
theorem refuses_of_not_next {r : Result} (hn : ∀ t, r ≠ .next t) (hf : ∀ f, r ≠ .fault f) : Refuses r := by
  cases r with
  | next t => exact absurd rfl (hn t)
  | fault f => exact absurd rfl (hf f)
  | refused x => exact ⟨x, rfl⟩

/-! Contexts and operations in progress (R48, R315). -/

theorem andThen_admission (c : AgentClass) (s : State) (r : Result) (k : State → Result) :
    andThen (admission c s r) k = admission c s (andThen r k) := by
  simp only [admission, apply_ite (andThen · k), andThen_refused]

/-- Every instruction but HW_RESET and RX_DRAIN is tested on admission, in the context R315 gives it. -/
theorem exec_eq_admission {i : Instr} (hr : i ≠ .hwReset) (hd : i ≠ .rxDrain) (s : State) :
    ∃ r, exec i s = admission (classOf i s) s r := by
  cases i
  case hwReset => exact absurd rfl hr
  case rxDrain => exact absurd rfl hd
  case transmit b => exact ⟨_, andThen_admission .thread s _ _⟩
  case irqHandler => exact ⟨_, andThen_admission .irq s _ _⟩
  all_goals exact ⟨_, rfl⟩

theorem admission_refuses_of_context {c : AgentClass} {s : State} (h : c.allows s.issuer = false) (r : Result) :
    Refuses (admission c s r) := by
  cases hf : s.failed with
  | true => exact ⟨.failedState, by simp [admission, hf]⟩
  | false => exact ⟨.wrongContext, by simp [admission, hf, h]⟩

theorem admission_refuses_of_busy {c : AgentClass} {s : State} (h : (s.opOf s.issuer).isSome = true) (r : Result) :
    Refuses (admission c s r) := by
  cases hf : s.failed with
  | true => exact ⟨.failedState, by simp [admission, hf]⟩
  | false =>
    cases ha : c.allows s.issuer with
    | false => exact ⟨.wrongContext, by simp [admission, hf, ha]⟩
    | true => exact ⟨.agentBusy, by simp [admission, hf, ha, h]⟩

theorem startDrain_ne_fault (s : State) (f : Fault) : startDrain s ≠ .fault f := by
  unfold startDrain
  repeat' split
  all_goals nofun

/-- RX_DRAIN is refused wherever no handler stands at the head of its drain under the lock (R220). -/
theorem exec_rxDrain_refuses {s : State} (h : ¬ AtDrain s) : Refuses (exec .rxDrain s) := by
  obtain ⟨x, hx⟩ : Refuses (startDrain s) :=
    refuses_of_not_next (fun t e => h (startDrain_eq_next.mp e).1) (startDrain_ne_fault s)
  refine ⟨x, ?_⟩
  change andThen (startDrain s) _ = _
  rw [hx, andThen_refused]

theorem exec_hwReset_refuses {s : State} (h : s.issuer ≠ .env) : Refuses (exec .hwReset s) :=
  ⟨.wrongContext, if_neg h⟩

/-- Settles O9: admission tests the context and the operation in progress, but for HW_RESET and RX_DRAIN, which have
tests of their own. -/
theorem onlyTheRightAgentMayIssue : Obligations.OnlyTheRightAgentMayIssue := by
  unfold Obligations.OnlyTheRightAgentMayIssue
  refine fun i s => ⟨fun context => ?_, fun hr hd busy => ?_, fun away => ?_⟩
  · by_cases hr : i = .hwReset
    · subst hr
      exact exec_hwReset_refuses fun env => by rw [env] at context; cases context
    by_cases hd : i = .rxDrain
    · subst hd
      exact exec_rxDrain_refuses fun drain => by rw [drain.context] at context; cases context
    obtain ⟨r, hx⟩ := exec_eq_admission hr hd s
    exact hx ▸ admission_refuses_of_context context r
  · obtain ⟨r, hx⟩ := exec_eq_admission hr hd s
    exact hx ▸ admission_refuses_of_busy busy r
  · exact exec_rxDrain_refuses fun drain => away drain.phase

/-! The cause and mask registers (R146, R148). -/

theorem writeReg_of_canIssue {c : AgentClass} {s : State} (h : CanIssue c s) (w : State → Result) :
    writeReg c w s = andThen (w s) done := admission_of_canIssue h

theorem not_rxt0 : ~~~rxt0 = 0xFFFFFF7F := by decide

theorem causeWriteOk_iff {v : Word} : causeWriteOk v = true ↔ v &&& 0xFFFFFF7F = 0 ∨ v = 0xFFFFFFFF := by
  simp only [causeWriteOk, not_rxt0, Bool.or_eq_true, beq_iff_eq]

theorem exec_wr32Icr {s : State} (h : CanIssue .irq s) {v : Word} (hv : v &&& 0xFFFFFF7F = 0 ∨ v = 0xFFFFFFFF) :
    exec (.wr32Icr v) s = .next ((acknowledge v s).respond codeOk 0) := by
  change writeReg .irq (wrIcr v) s = _
  rw [writeReg_of_canIssue h, wrIcr_eq_next.mpr ⟨causeWriteOk_iff.mpr hv, rfl⟩]
  rfl

theorem exec_wr32Icr_refuses {s : State} (h : CanIssue .irq s) {v : Word}
    (hv : ¬ (v &&& 0xFFFFFF7F = 0 ∨ v = 0xFFFFFFFF)) : Refuses (exec (.wr32Icr v) s) := by
  refine ⟨.reservedBits, ?_⟩
  change writeReg .irq (wrIcr v) s = _
  rw [writeReg_of_canIssue h, wrIcr, if_neg (fun ok => hv (causeWriteOk_iff.mp ok)), andThen_refused]

theorem exec_wr32Ims {s : State} (h : CanIssue .init s) {v : Word} (hv : v &&& 0xFFFFFF7F = 0) :
    exec (.wr32Ims v) s = .next ({ s with regs := { s.regs with ims := s.regs.ims ||| v } }.respond codeOk 0) := by
  change writeReg .init (wrIms v) s = _
  rw [writeReg_of_canIssue h, wrIms_eq_next.mpr ⟨not_rxt0 ▸ hv, rfl⟩]
  rfl

theorem exec_wr32Ims_refuses {s : State} (h : CanIssue .init s) {v : Word} (hv : v &&& 0xFFFFFF7F ≠ 0) :
    Refuses (exec (.wr32Ims v) s) := by
  refine ⟨.reservedBits, ?_⟩
  change writeReg .init (wrIms v) s = _
  rw [writeReg_of_canIssue h, wrIms, not_rxt0, if_pos hv, andThen_refused]

/-- With no cause pending the irq line is low (R47). -/
theorem irqLine_of_no_cause {s : State} (h : s.regs.icr = 0) : irqLine s = false := by
  have masked : (0 : Word) &&& s.regs.ims = 0 := BitVec.zero_and
  rw [irqLine, h, masked]
  rfl

theorem clearCauses_all (icr : Word) : clearCauses icr 0xFFFFFFFF = 0 := BitVec.and_zero

/-- Settles O17: each write is its register's rule where admitted, and all ones leave no cause. -/
theorem causeAndMaskWrites : Obligations.CauseAndMaskWrites := by
  unfold Obligations.CauseAndMaskWrites
  refine fun s v => ⟨fun irq => ⟨?_, ?_⟩, fun init => ?_⟩
  · split
    · exact exec_wr32Icr irq ‹_›
    · exact exec_wr32Icr_refuses irq ‹_›
  · have none : (acknowledge 0xFFFFFFFF s).regs.icr = 0 := clearCauses_all _
    exact ⟨_, exec_wr32Icr irq (.inr rfl), none, irqLine_of_no_cause none⟩
  · split
    · exact exec_wr32Ims init ‹_›
    · exact exec_wr32Ims_refuses init ‹_›

/-! Software's own writes (R43, R87, R190). -/

/-- The bytes of a string just stored stand where they were written. -/
theorem byteAt_storeBytes {a : Addr} {bs : List Byte} (s : State) (hl : bs.length ≤ 2 ^ 64) {k : Nat} {x : Byte}
    (h : bs[k]? = some x) : (s.storeBytes a bs).byteAt (a + BitVec.ofNat 64 k) = x := by
  obtain ⟨hk, rfl⟩ := List.getElem?_eq_some_iff.mp h
  exact Memory.read_writeBytes_at s.mem a bs k hk hl

theorem byteAt_storeBytes_outside {a c : Addr} {bs : List Byte} (s : State) (h : outside a bs.length c) :
    (s.storeBytes a bs).byteAt c = s.byteAt c :=
  Memory.read_writeBytes_other s.mem a c bs h

theorem add_ofNat_add (a : Addr) (m n : Nat) :
    a + BitVec.ofNat 64 m + BitVec.ofNat 64 n = a + BitVec.ofNat 64 (m + n) := by
  rw [BitVec.add_assoc, BitVec.ofNat_add]

/-- A descriptor's bytes follow one another (R76). -/
theorem descAddr_add (r : Ring) (i off k : Nat) (s : State) :
    descAddr r i off s + BitVec.ofNat 64 k = descAddr r i (off + k) s := by
  simp only [descAddr, add_ofNat_add, Nat.add_assoc]

theorem exposed_iff {r : Ring} {i : Nat} {s : State} (hr : ringReady r s = true) (hi : i < ringSize r s) :
    exposed r i s = true ↔ GivenToHardware r i s := by
  cases r <;> simp [exposed, GivenToHardware, hr, hi, Option.isSome_iff_ne_none]

section Mutate

variable {r : Ring} {i off : Nat} {bytes : List Byte} {s : State}

theorem mutate_descriptor (h : exposed r i s = true) (hlen : off + bytes.length ≤ 16) :
    mutate r .descriptor i off bytes s = .next (s.storeBytes (descAddr r i off s) bytes) := by
  refine mutate_eq_next.mpr ⟨descAddr r i 0 s, Config.descBytes, by simp [mutableArea, h], hlen, ?_⟩
  rw [descAddr_add, Nat.zero_add]

theorem mutate_payload (h : exposed r i s = true) {g : Handle} {b : Buffer} (hs : s.slotAt r i = some g)
    (hb : s.bufOf g = some b) (hlen : off + bytes.length ≤ b.area) :
    mutate r .payload i off bytes s = .next (s.storeBytes (b.addr + BitVec.ofNat 64 off) bytes) :=
  mutate_eq_next.mpr ⟨b.addr, b.area, by simp [mutableArea, h, hs, hb], hlen, rfl⟩

theorem mutate_refuses (h : exposed r i s ≠ true) (p : Part) : Refuses (mutate r p i off bytes s) :=
  ⟨.notCommitted, by simp [mutate, mutableArea, h]⟩

end Mutate

theorem prepare_ne_fault (h : Handle) (bytes : List Byte) (s : State) (f : Fault) : prepare h bytes s ≠ .fault f := by
  unfold prepare
  repeat' split
  all_goals nofun

/-- A buffer the issuer holds, the issuer having nothing in progress: what `prepare` asks for before the length. -/
theorem prepare_refuses_of_context {h : Handle} {s : State} (bytes : List Byte)
    (hc : s.holderOf h ≠ .caller s.issuer ∨ s.opOf s.issuer ≠ none) : Refuses (prepare h bytes s) := by
  refine refuses_of_not_next (fun t e => ?_) (prepare_ne_fault h bytes s)
  obtain ⟨idle, b, hb, holds, -, -⟩ := prepare_eq_next.mp e
  have holder : s.holderOf h = .caller s.issuer := by rw [State.holderOf, hb]; exact holds
  exact hc.elim (· holder) (· idle)

theorem prepare_refuses_of_length {h : Handle} {b : Buffer} {s : State} {bytes : List Byte} (hb : s.bufOf h = some b)
    (hlen : b.area < bytes.length) : Refuses (prepare h bytes s) := by
  refine refuses_of_not_next (fun t e => ?_) (prepare_ne_fault h bytes s)
  obtain ⟨-, c, hc, -, fits, -⟩ := prepare_eq_next.mp e
  cases hb.symm.trans hc
  omega

/-- Settles O36: what is admitted is one string stored, at the descriptor, in the payload area, or with the buffer's
length set to its own. -/
theorem callerWritesItsBuffer : Obligations.CallerWritesItsBuffer := by
  unfold Obligations.CallerWritesItsBuffer
  constructor
  · intro s r p i off bytes hr hi
    have shown := exposed_iff hr hi
    refine ⟨fun given => ⟨fun hlen => ?descriptor, fun h b hs hb hlen hsize => ?payload⟩, fun spared => ?spared⟩
    case descriptor =>
      refine ⟨_, mutate_descriptor (shown.mpr given) hlen, rfl, fun k x hx => ?_, fun a => byteAt_storeBytes_outside s⟩
      rw [← descAddr_add]
      exact byteAt_storeBytes s (by omega) hx
    case payload =>
      refine ⟨_, mutate_payload (shown.mpr given) hs hb hlen, rfl, fun k x hx => ?_,
        fun a => byteAt_storeBytes_outside s⟩
      rw [← add_ofNat_add]
      exact byteAt_storeBytes s hsize hx
    case spared => exact mutate_refuses (spared ∘ shown.mp) p
  · intro s h bytes
    refine ⟨prepare_refuses_of_context bytes, fun b idle hb holds => ⟨prepare_refuses_of_length hb, fun hlen hsize => ?_⟩⟩
    exact ⟨_, prepare_eq_next.mpr ⟨idle, b, hb, holds, hlen, rfl⟩, rfl, bufOf_setBuf_self h _ _,
      fun g hg => bufOf_setBuf_other hg _ _, fun k x => byteAt_storeBytes s hsize,
      fun a => byteAt_storeBytes_outside s⟩

/-! Reset (R51, R330). -/

/-- Settles O50: HW_RESET is the environment's alone, and its state is R51's. -/
theorem hardwareReset : Obligations.HardwareReset := by
  unfold Obligations.HardwareReset
  refine fun s => ⟨exec_hwReset_refuses, fun env => ⟨hwReset s, exec_hwReset_eq_next.mpr ⟨env, rfl⟩, ?_⟩⟩
  have line : irqLine (hwReset s) = false := irqLine_of_no_cause rfl
  exact ⟨rfl, rfl, rfl, rfl, rfl, rfl, rfl, rfl, rfl, rfl, rfl, rfl, rfl, rfl, rfl, rfl, line, rfl, rfl, rfl, rfl,
    rfl, rfl, rfl, rfl, rfl, rfl⟩

theorem legal_reset : Legal State.reset where
  mem := Memory.wf_nil
  bufs := rfl
  ops := rfl
  regs := by decide
  enables := by decide
  tx := .of_reset rfl rfl rfl
  rx := .of_unready rfl

/-- With no operation in progress nobody is inside a critical section. -/
theorem criticalSections_of_no_ops {s : State} (h : s.ops = []) : CriticalSections s := by
  intro a o ho
  rw [State.opOf, h] at ho
  cases ho

/-- Settles O51: the reset state is legal, and it has the table's values. -/
theorem resetStateIsLegal : Obligations.ResetStateIsLegal := by
  unfold Obligations.ResetStateIsLegal
  have line : irqLine State.reset = false := irqLine_of_no_cause rfl
  exact ⟨legal_reset, criticalSections_of_no_ops rfl, rfl, rfl, rfl, rfl, rfl, rfl, rfl, rfl, rfl, rfl, rfl, rfl, rfl,
    rfl, rfl, rfl, rfl, rfl, rfl, rfl, rfl, line, rfl, rfl, rfl, rfl⟩

end Sys2Proof.Machine
end

section
/-! PROOFS. FENCE, LOCK and UNLOCK (spec file 20_memory.md): what each does by the state of the lock. -/

namespace Sys2Proof.Machine

open Sys2Proof

/-! LOCK and UNLOCK by the state of the lock (R83, R84). -/

section Locks

variable {r : Ring} {s : State}

theorem lockThen_of_free (h : s.lockOf r = .free) (w : State) (k : State → Result) :
    lockThen r w s k = k (s.setLock r (.held s.issuer)) := by
  simp only [lockThen, h]

theorem lockThen_of_held_self (h : s.lockOf r = .held s.issuer) (w : State) (k : State → Result) :
    lockThen r w s k = .refused .lockReentry := by
  simp only [lockThen, h, if_pos]

theorem lockThen_of_held_other {a : Agent} (h : s.lockOf r = .held a) (ha : a ≠ s.issuer) (w : State)
    (k : State → Result) : lockThen r w s k = .next w := by
  simp only [lockThen, h, if_neg ha]

theorem unlockThen_of_held (h : s.lockOf r = .held s.issuer) (k : State → Result) :
    unlockThen r s k = k (s.setLock r .free) :=
  if_pos (beq_iff_eq.mpr h)

theorem unlockThen_of_not_held (h : s.lockOf r ≠ .held s.issuer) (k : State → Result) :
    unlockThen r s k = .refused .lockNotHeld :=
  if_neg (h ∘ beq_iff_eq.mp)

theorem exec_lock (h : CanIssue (ringClass r) s) : exec (.lock r) s = lockThen r (s.setOp (.lockWait r)) s done :=
  admission_of_canIssue h

theorem exec_unlock (h : CanIssue (ringClass r) s) : exec (.unlock r) s = unlockThen r s done :=
  admission_of_canIssue h

theorem proceed_of_opOf {o : Op} (hf : s.failed = false) (ho : s.opOf s.issuer = some o) :
    proceed s = opPhase o s := by
  simp [proceed, hf, ho]

theorem opBecomes_setOp (o : Op) (s : State) : OpBecomes (some o) s (s.setOp o) :=
  ⟨opOf_setOp_self o s, fun _ h => opOf_setOp_other h o⟩

theorem opBecomes_clearOp (s : State) : OpBecomes none s s.clearOp :=
  ⟨opOf_clearOp_self s, fun _ h => opOf_clearOp_other h⟩

/-- A waiting LOCK that finds the lock free takes it and ends (R83). -/
theorem lockRetry_of_free (h : s.lockOf r = .free) :
    lockRetry r s = .next ((s.setLock r (.held s.issuer)).clearOp.respond codeOk 0) :=
  lockThen_of_free h _ _

/-- A waiting LOCK that finds the lock another agent's goes on waiting (R83, log 14). -/
theorem lockRetry_of_held_other {a : Agent} (h : s.lockOf r = .held a) (ha : a ≠ s.issuer) :
    lockRetry r s = .next s :=
  lockThen_of_held_other h ha s _

theorem opBecomes_setLock_clearOp (l : Lock) (code : Byte) (v : Word) :
    OpBecomes none s ((s.setLock r l).clearOp.respond code v) := by
  cases r <;> exact opBecomes_clearOp s

end Locks

/-- Settles O18: each operation by the state of the lock, free, the issuer's or another agent's. -/
theorem synchronisation : Obligations.Synchronisation := by
  unfold Obligations.Synchronisation
  refine fun s r => ⟨?fence, ?take, ?reentry, ?wait, ?retaken, ?waitsOn, ?unlock, ?notHeld⟩
  case fence => exact admission_of_canIssue
  case take => exact fun can free => (exec_lock can).trans (lockThen_of_free free _ _)
  case reentry => exact fun can held => ⟨_, (exec_lock can).trans (lockThen_of_held_self held _ _)⟩
  case wait =>
    intro a can held other
    exact ⟨_, (exec_lock can).trans (lockThen_of_held_other held other _ _), rfl, opBecomes_setOp _ s⟩
  case retaken =>
    intro running waiting free
    exact ⟨_, (proceed_of_opOf running waiting).trans (lockRetry_of_free free), rfl, opBecomes_setLock_clearOp _ _ _⟩
  case waitsOn =>
    intro a running waiting held other
    exact (proceed_of_opOf running waiting).trans (lockRetry_of_held_other held other)
  case unlock => exact fun can held => (exec_unlock can).trans (unlockThen_of_held held _)
  case notHeld => exact fun can away => ⟨_, (exec_unlock can).trans (unlockThen_of_not_held away _)⟩

end Sys2Proof.Machine
end

section
/-! PROOFS. Mutual exclusion (R88, R343; spec file 20_memory.md): an agent inside a ring's critical section holds the
ring's lock. Only LOCK, UNLOCK, HW_RESET and the operations of several phases change locks and operations in progress;
every other instruction, and the work of a phase before it goes on, leaves them. -/

namespace Sys2Proof.Machine

open Sys2Proof

/-! What leaves the locks and the operations in progress. -/

/-- What mutual exclusion is about: the operations in progress, the two locks and the issuer. -/
def State.sync (s : State) : List (Nat × Op) × Lock × Lock × Agent := (s.ops, s.txLock, s.rxLock, s.issuer)

/-- From `s` to `t` no lock, no operation in progress and no issuer changes. -/
def SameSync (s t : State) : Prop := t.sync = s.sync

theorem sync_setDescStatus (r : Ring) (i : Nat) (v : Byte) (s : State) : (setDescStatus r i v s).sync = s.sync := rfl

theorem sync_clearDesc (r : Ring) (i : Nat) (s : State) : (clearDesc r i s).sync = s.sync := rfl

theorem sync_setDescPayload (r : Ring) (i : Nat) (a : Addr) (s : State) : (setDescPayload r i a s).sync = s.sync := rfl

theorem sync_setSlots (r : Ring) (l : List (Option Handle)) (s : State) : (s.setSlots r l).sync = s.sync := by
  cases r <;> rfl

theorem sync_nextProposal (s : State) : s.nextProposal.sync = s.sync := by
  unfold State.nextProposal
  split <;> rfl

theorem sync_allocate (x : List Region) (n : Idx) (s : State) : (allocate x n s).sync = s.sync := by
  unfold allocate
  split <;> exact sync_nextProposal s

theorem sync_installHolder (h : Handle) (r : Ring) (i : Nat) (s : State) : (s.installHolder h r i).sync = s.sync := by
  unfold State.installHolder
  split <;> rfl

theorem sync_clearTxds (k i : Nat) (s : State) : (clearTxds k i s).sync = s.sync := by
  induction k generalizing i s with
  | zero => rfl
  | succ k ih => rw [clearTxds, ih, sync_setDescStatus, sync_clearDesc]

theorem sync_armSlot (i : Nat) (h : Handle) (s : State) : (armSlot i h s).sync = s.sync := by
  simp only [armSlot, sync_setDescStatus, sync_setDescPayload, sync_installHolder]
  rfl

theorem sync_reportStatus (f : Inflight) (s : State) : (reportStatus f s).sync = s.sync := by
  unfold reportStatus
  split <;> rfl

theorem sync_respondAlloc (a : Option Handle) (s : State) : (s.respondAlloc a).sync = s.sync := by
  cases a <;> rfl

/-- Where the result is a next state, locks, operations in progress and issuer are those of `s`. -/
abbrev Calm (s : State) (r : Result) : Prop := Leads SameSync s r

theorem Calm.sync {s t : State} {r : Result} (h : Calm s r) (e : r = .next t) : t.sync = s.sync := by
  have path := h t e
  clear e
  induction path with
  | refl => rfl
  | tail _ same ih => exact same.trans ih

theorem done_calm (s : State) : Calm s (done s) := .one rfl

/-! The shared operations. -/

theorem freeBuf_calm (h : Handle) (s : State) : Calm s (freeBuf h s) := by
  intro t e
  obtain ⟨-, rfl⟩ := freeBuf_eq_next.mp e
  exact .single rfl

theorem freeSlotBuf_calm (x : Option Handle) (s : State) : Calm s (freeSlotBuf x s) := by
  cases x with
  | none => exact .one rfl
  | some h => exact freeBuf_calm h s

theorem appendBuf_calm (h : Handle) (n : Nat) (s : State) : Calm s (appendBuf h n s) := by
  intro t e
  obtain ⟨-, b, -, rfl⟩ := appendBuf_eq_next.mp e
  exact .single rfl

theorem deliverBuf_calm (h : Handle) (s : State) : Calm s (deliverBuf h s) := by
  intro t e
  obtain ⟨b, -, rfl⟩ := deliverBuf_eq_next.mp e
  exact .single rfl

theorem allocThen_calm {x : List Region} {n : Idx} {s : State} {k : Option Handle → State → Result}
    (hk : ∀ a u, Calm u (k a u)) : Calm s (allocThen x n s k) :=
  .guard fun _ => .after (.single (sync_allocate x n s)) (hk _ _)

theorem markOwned_calm (r : Ring) (i : Nat) (c : Byte) (s : State) : Calm s (markOwned r i c s) := by
  intro t e
  obtain ⟨-, -, -, -, -, rfl⟩ := markOwned_eq_next.mp e
  cases r <;> exact .single rfl

theorem installSlot_calm (r : Ring) (i : Nat) (x : Option Handle) (s : State) : Calm s (installSlot r i x s) := by
  have installed (h : Handle) (u : State) : ((u.setSlot r i (some h)).installHolder h r i).sync = u.sync :=
    (sync_installHolder h r i _).trans (sync_setSlots r _ u)
  intro t e
  obtain ⟨-, -, -, ⟨rfl, rfl⟩ | ⟨h, rfl, -, hl⟩⟩ := installSlot_eq_next.mp e
  · exact .single (sync_setSlots r _ s)
  rcases liveThen_eq_next.mp hl with ⟨-, hk⟩ | ⟨-, b, -, hk⟩
  · cases hk
    exact .single (installed h s)
  · cases hk
    exact .single (installed h _)

theorem wrTdt_calm (v : Word) (s : State) : Calm s (wrTdt v s) := by
  intro t e
  rcases wrTdt_eq_next.mp e with ⟨-, -, rfl⟩ | ⟨-, -, -, -, -, rfl⟩ <;> exact .single rfl

theorem wrRdt_calm (v : Word) (s : State) : Calm s (wrRdt v s) := by
  intro t e
  obtain ⟨-, -, -, rfl⟩ := wrRdt_eq_next.mp e
  exact .single rfl

theorem wrIcr_calm (v : Word) (s : State) : Calm s (wrIcr v s) := by
  intro t e
  obtain ⟨-, rfl⟩ := wrIcr_eq_next.mp e
  exact .single rfl

/-! Software's own writes (log 22). -/

theorem prepare_calm (h : Handle) (bytes : List Byte) (s : State) : Calm s (prepare h bytes s) := by
  intro t e
  obtain ⟨-, b, -, -, -, rfl⟩ := prepare_eq_next.mp e
  exact .single rfl

theorem mutate_calm (r : Ring) (p : Part) (i off : Nat) (bytes : List Byte) (s : State) :
    Calm s (mutate r p i off bytes s) := by
  intro t e
  obtain ⟨a, n, -, -, rfl⟩ := mutate_eq_next.mp e
  exact .single rfl

/-! Register accesses. -/

theorem readReg_calm (v : Word) (s : State) : Calm s (readReg v s) := .admission (.one rfl)

theorem writeReg_calm {c : AgentClass} {w : State → Result} {s : State} (hw : Calm s (w s)) :
    Calm s (writeReg c w s) :=
  .admission (hw.andThen done_calm)

/-- A write made or refused on a condition. -/
theorem assign_calm {c : Prop} [Decidable c] {s t : State} {x : Refusal} (h : t.sync = s.sync) :
    Calm s (if c then .next t else .refused x) :=
  .ite (fun _ => .one h) fun _ => .refused _

theorem wrCtrl_calm (v : Word) (s : State) : Calm s (wrCtrl v s) := by
  intro t e
  rcases wrCtrl_eq_next.mp e with ⟨-, rfl⟩ | ⟨-, -, rfl⟩ <;> exact .single rfl

theorem wrIms_calm (v : Word) (s : State) : Calm s (wrIms v s) := .guard fun _ => .one rfl

theorem wrRctl_calm (v : Word) (s : State) : Calm s (wrRctl v s) :=
  .ite (fun _ => .one rfl) fun _ => .ite (fun _ => assign_calm rfl) fun _ => .refused _

theorem wrTctl_calm (v : Word) (s : State) : Calm s (wrTctl v s) :=
  .ite (fun _ => .one rfl) fun _ => .ite (fun _ => assign_calm rfl) fun _ => .refused _

/-! Construction and device events. -/

theorem execRingInitTx_calm (n : Idx) (s : State) : Calm s (execRingInitTx n s) := by
  refine .admission (.guard fun _ => .guard fun _ => .ite (fun _ => .one rfl) fun _ => ?_)
  exact .one (sync_clearTxds n.toNat 0 (txGeometry n.toNat s))

theorem populateRx_calm (n k i : Nat) (s : State) : Calm s (populateRx n k i s) := by
  induction k generalizing i s with
  | zero => exact .one rfl
  | succ k ih =>
    refine allocThen_calm fun a u => ?_
    cases a with
    | none => exact .one rfl
    | some h => exact .after (.single (sync_armSlot i h u)) (ih (i + 1) _)

theorem execRingInitRx_calm (n : Idx) (s : State) : Calm s (execRingInitRx n s) := by
  refine .admission (.guard fun _ => .guard fun _ => .ite (fun _ => .one rfl) fun _ => ?_)
  exact .after (.single (b := rxGeometry n.toNat s) rfl) (populateRx_calm _ _ 0 _)

theorem execDevTxFetch_calm (s : State) : Calm s (execDevTxFetch s) :=
  .admission (.ite (fun _ => .one rfl) fun _ => .guard fun _ => .guard fun _ => .one rfl)

theorem execDevTxDone_calm (s : State) : Calm s (execDevTxDone s) := by
  refine .admission ?_
  cases s.txInflight with
  | none => exact .one rfl
  | some f => exact .ite (fun _ => .one (sync_reportStatus f (s.emit (.wireTx f.bytes)))) fun _ => .one rfl

theorem execDevRxFrame_calm (len : Idx) (s : State) : Calm s (execDevRxFrame len s) :=
  .admission (.guard fun _ => .ite (fun _ => .one rfl) fun _ => .ite (fun _ => .one rfl) fun _ =>
    .guard fun _ => .one rfl)

/-! The instructions. -/

/-- LOCK, UNLOCK, HW_RESET and the operations of several phases: what changes locks or operations in progress. -/
def synchronises : Instr → Bool
  | .lock _ => true
  | .unlock _ => true
  | .transmit _ => true
  | .rxDrain => true
  | .irqHandler => true
  | .hwReset => true
  | _ => false

/-- Every other instruction leaves the locks and the operations in progress. -/
theorem exec_calm {i : Instr} (hi : synchronises i = false) (s : State) : Calm s (exec i s) := by
  cases i
  case lock => cases hi
  case unlock => cases hi
  case transmit => cases hi
  case rxDrain => cases hi
  case irqHandler => cases hi
  case hwReset => cases hi
  case fence => exact .admission (done_calm s)
  case slotStatus r k =>
    exact .admission (.guard fun _ => .guard fun _ => .guard fun _ => .guard fun _ => .one rfl)
  case markHwOwned r k c => exact .admission ((markOwned_calm r k.toNat c s).andThen done_calm)
  case installBuf r k h => exact .admission ((installSlot_calm r k.toNat (handleArg h) s).andThen fun _ => .one rfl)
  case ringInitTx n => exact execRingInitTx_calm n s
  case ringInitRx n => exact execRingInitRx_calm n s
  case rd32Icr => exact .admission (.refused _)
  case wr32Ctrl v => exact writeReg_calm (wrCtrl_calm v s)
  case wr32Icr v => exact writeReg_calm (wrIcr_calm v s)
  case wr32Ims v => exact writeReg_calm (wrIms_calm v s)
  case wr32Rctl v => exact writeReg_calm (wrRctl_calm v s)
  case wr32Tctl v => exact writeReg_calm (wrTctl_calm v s)
  case wr32Rdt v => exact writeReg_calm (wrRdt_calm v s)
  case wr32Tdt v => exact writeReg_calm (wrTdt_calm v s)
  case wr32Rdbal v => exact writeReg_calm (.guard fun _ => assign_calm rfl)
  case wr32Rdlen v => exact writeReg_calm (.guard fun _ => assign_calm rfl)
  case wr32Rdh v => exact writeReg_calm (.guard fun _ => assign_calm rfl)
  case wr32Tdbal v => exact writeReg_calm (.guard fun _ => assign_calm rfl)
  case wr32Tdlen v => exact writeReg_calm (.guard fun _ => assign_calm rfl)
  case wr32Tdh v => exact writeReg_calm (.guard fun _ => assign_calm rfl)
  case wr32Rdbah v => exact writeReg_calm (.guard fun _ => .one rfl)
  case wr32Tdbah v => exact writeReg_calm (.guard fun _ => .one rfl)
  case wr32Rdtr v => exact writeReg_calm (assign_calm rfl)
  case wr32Radv v => exact writeReg_calm (assign_calm rfl)
  case wr32Ral v => exact .admission (.andThen (.one rfl) done_calm)
  case wr32Rah v => exact .admission (.andThen (.one rfl) done_calm)
  case wr32Mta k v => exact .admission (.andThen (.one rfl) done_calm)
  case devTxFetch => exact execDevTxFetch_calm s
  case devTxDone => exact execDevTxDone_calm s
  case devRxFrame len => exact execDevRxFrame_calm len s
  case alloc n => exact .admission (allocThen_calm fun a u => .one (sync_respondAlloc a u))
  case free h => exact .admission (.guard fun _ => (freeBuf_calm h s).andThen done_calm)
  case append h n => exact .admission (.guard fun _ => (appendBuf_calm h n.toNat s).andThen done_calm)
  case deliver h => exact .admission (.guard fun _ => (deliverBuf_calm h s).andThen done_calm)
  all_goals exact readReg_calm _ s

end Sys2Proof.Machine
end

section
/-! PROOFS. Mutual exclusion (R88, R210, R343; spec file 20_memory.md): a lock is taken when nobody is inside its
critical section and given back by an agent that leaves it, and an operation goes inside only under the lock. -/

namespace Sys2Proof.Machine

open Sys2Proof

/-! The critical sections by ring. -/

/-- The operation is inside the ring's critical section. -/
def Op.inside (r : Ring) (o : Op) : Bool :=
  match r with
  | .tx => o.holdsTx
  | .rx => o.holdsRx

theorem criticalSections_iff {s : State} :
    CriticalSections s ↔ ∀ r a o, s.opOf a = some o → o.inside r = true → s.lockOf r = .held a := by
  constructor
  · intro h r a o ho inside
    obtain ⟨tx, rx⟩ := h a o ho
    cases r with
    | tx => exact tx inside
    | rx => exact rx inside
  · exact fun h a o ho => ⟨h .tx a o ho, h .rx a o ho⟩

section Sections

variable {r : Ring} {s t : State} {o : Op}

theorem opOf_setLock (r : Ring) (l : Lock) (a : Agent) (s : State) : (s.setLock r l).opOf a = s.opOf a := by
  cases r <;> rfl

theorem lockOf_of_sync (r : Ring) (e : t.sync = s.sync) : t.lockOf r = s.lockOf r := by
  simp only [State.sync, Prod.mk.injEq] at e
  obtain ⟨-, tx, rx, -⟩ := e
  cases r with
  | tx => exact tx
  | rx => exact rx

theorem opOf_of_sync (a : Agent) (e : t.sync = s.sync) : t.opOf a = s.opOf a :=
  congrArg (Assoc.lookup (agentKey a) ·) (congrArg Prod.fst e)

theorem issuer_of_sync (e : t.sync = s.sync) : t.issuer = s.issuer := congrArg (fun x => x.2.2.2) e

theorem CriticalSections.of_sync (h : CriticalSections s) (e : t.sync = s.sync) : CriticalSections t := by
  rw [criticalSections_iff] at h ⊢
  intro r a o ho inside
  exact (lockOf_of_sync r e).trans (h r a o ((opOf_of_sync a e).symm.trans ho) inside)

/-- A ring's lock may be set to anything while nobody is inside the ring's critical section. -/
theorem CriticalSections.setLock (h : CriticalSections s) (l : Lock)
    (nobody : ∀ a o, s.opOf a = some o → o.inside r ≠ true) : CriticalSections (s.setLock r l) := by
  rw [criticalSections_iff] at h ⊢
  intro q a o ho inside
  rw [opOf_setLock] at ho
  have other : q ≠ r := by
    rintro rfl
    exact nobody a o ho inside
  exact (lockOf_setLock_other other l s).trans (h q a o ho inside)

theorem CriticalSections.acquire (h : CriticalSections s) (free : s.lockOf r = .free) (l : Lock) :
    CriticalSections (s.setLock r l) :=
  h.setLock l fun a o ho inside => Lock.noConfusion (free.symm.trans (criticalSections_iff.mp h r a o ho inside))

/-- Where the issuer holds the lock, only the issuer can be inside. -/
theorem CriticalSections.release (h : CriticalSections s) (held : s.lockOf r = .held s.issuer)
    (left : ∀ o, s.opOf s.issuer = some o → o.inside r ≠ true) (l : Lock) : CriticalSections (s.setLock r l) :=
  h.setLock l fun a o ho inside => by
    cases held.symm.trans (criticalSections_iff.mp h r a o ho inside)
    exact left o ho inside

theorem CriticalSections.setOp (h : CriticalSections s) (entitled : ∀ r, o.inside r = true → s.lockOf r = .held s.issuer) :
    CriticalSections (s.setOp o) := by
  rw [criticalSections_iff] at h ⊢
  intro r a p hp inside
  by_cases ha : a = s.issuer
  · subst ha
    cases (opOf_setOp_self o s).symm.trans hp
    exact entitled r inside
  · rw [opOf_setOp_other ha] at hp
    exact h r a p hp inside

theorem CriticalSections.clearOp (h : CriticalSections s) : CriticalSections s.clearOp := by
  rw [criticalSections_iff] at h ⊢
  intro r a p hp inside
  by_cases ha : a = s.issuer
  · subst ha
    cases (opOf_clearOp_self s).symm.trans hp
  · rw [opOf_clearOp_other ha] at hp
    exact h r a p hp inside

/-- UNLOCK and the end of the operation are one step: the order does not matter. -/
theorem CriticalSections.leave (h : CriticalSections s) (held : s.lockOf r = .held s.issuer) (l : Lock) :
    CriticalSections (s.setLock r l).clearOp := by
  have left : ∀ o, s.clearOp.opOf s.clearOp.issuer = some o → o.inside r ≠ true := by
    intro o ho
    cases (opOf_clearOp_self s).symm.trans ho
  refine (h.clearOp.release held left l).of_sync ?_
  cases r <;> rfl

end Sections

/-! Results that keep them. -/

/-- Where the result is a next state, its critical sections are held. -/
def Exclusive (x : Result) : Prop := ∀ t, x = .next t → CriticalSections t

/-- The issuer may be inside the ring's critical section. -/
structure Within (r : Ring) (s : State) : Prop where
  sections : CriticalSections s
  lock : s.lockOf r = .held s.issuer

section Results

variable {r : Ring} {s : State} {x : Result}

theorem Exclusive.next (h : CriticalSections s) : Exclusive (.next s) := by
  intro t e
  cases e
  exact h

theorem Exclusive.refused (y : Refusal) : Exclusive (.refused y) := by
  intro t e
  cases e

theorem Exclusive.fault (f : Fault) : Exclusive (.fault f) := by
  intro t e
  cases e

theorem Exclusive.calm (h : CriticalSections s) (calm : Calm s x) : Exclusive x :=
  fun _ e => h.of_sync (calm.sync e)

theorem Exclusive.andThen {k : State → Result} (hx : Exclusive x) (hk : ∀ u, CriticalSections u → Exclusive (k u)) :
    Exclusive (andThen x k) := by
  intro t e
  obtain ⟨u, hu, ht⟩ := andThen_eq_next.mp e
  exact hk u (hx u hu) t ht

/-- An operation that stays outside both critical sections goes on. -/
theorem exclusive_setOp (h : CriticalSections s) {o : Op} (tx : o.holdsTx = false) (rx : o.holdsRx = false) :
    Exclusive (.next (s.setOp o)) := by
  refine .next (h.setOp fun r inside => ?_)
  cases r with
  | tx => cases tx.symm.trans inside
  | rx => cases rx.symm.trans inside

theorem lockThen_exclusive {w : State} {k : State → Result} (h : CriticalSections s) (hw : CriticalSections w)
    (hk : ∀ u, Within r u → Exclusive (k u)) : Exclusive (lockThen r w s k) := by
  intro t e
  rcases lockThen_eq_next.mp e with ⟨free, ht⟩ | ⟨a, -, -, rfl⟩
  · exact hk _ ⟨h.acquire free _, by simp⟩ t ht
  · exact hw

theorem Within.of_sync {t : State} (h : Within r s) (e : t.sync = s.sync) : Within r t where
  sections := h.sections.of_sync e
  lock := by rw [lockOf_of_sync r e, issuer_of_sync e, h.lock]

/-- A phase that does calm work and then goes on. -/
theorem Within.andThen {k : State → Result} (h : Within r s) (calm : Calm s x)
    (hk : ∀ u, Within r u → Exclusive (k u)) : Exclusive (andThen x k) := by
  intro t e
  obtain ⟨u, hu, ht⟩ := andThen_eq_next.mp e
  exact hk u (h.of_sync (calm.sync hu)) t ht

/-- Under a ring's lock an operation goes on inside that ring's critical section. -/
theorem Within.setOp (h : Within r s) {o : Op} (only : ∀ q, o.inside q = true → q = r) :
    Exclusive (.next (s.setOp o)) :=
  .next (h.sections.setOp fun q inside => only q inside ▸ h.lock)

end Results

/-! Going on inside a critical section. -/

theorem inside_transmit {c : TxCtx} {q : Ring} (h : (Op.transmit c).inside q = true) : q = .tx := by
  cases q with
  | tx => rfl
  | rx => cases h

theorem inside_irqHandler {p : IrqPhase} {q : Ring} (h : (Op.irqHandler p).inside q = true) : q = .rx := by
  cases q with
  | tx => cases h
  | rx => rfl

theorem Within.txGoto {s : State} (h : Within .tx s) (c : TxCtx) : Exclusive (txGoto c s) :=
  h.setOp fun _ => inside_transmit

theorem Within.rxGoto {s : State} (h : Within .rx s) (c : RxCtx) : Exclusive (rxGoto c s) :=
  h.setOp fun _ => inside_irqHandler

theorem Within.irqGoto {s : State} (h : Within .rx s) (p : IrqPhase) : Exclusive (irqGoto p s) :=
  h.setOp fun _ => inside_irqHandler

/-! TRANSMIT (R201 to R209). -/

theorem txT6_exclusive {s : State} (h : Within .tx s) (c : TxCtx) : Exclusive (txT6 c s) := by
  intro t e
  obtain ⟨-, -, -, e⟩ := whenSendable_eq_next.mp e
  exact h.andThen (installSlot_calm _ _ _ s) (fun u hu => Within.txGoto (hu.of_sync (by rfl)) _) t e

/-- The UNLOCK that ends a TRANSMIT, with any code. -/
theorem txUnlock_exclusive {s : State} (h : CriticalSections s) (code : Byte) :
    Exclusive (unlockThen .tx s (fun u => .next (u.clearOp.respond code 0))) := by
  intro t e
  obtain ⟨held, e⟩ := unlockThen_eq_next.mp e
  cases e
  exact (h.leave held .free).of_sync rfl

theorem txPhase_exclusive {s : State} {c : TxCtx} (h : CriticalSections s)
    (ho : s.opOf s.issuer = some (.transmit c)) : Exclusive (txPhase c s) := by
  have within {p : TxPhase} (hp : c.phase = p) (past : p ≠ .t1) : Within .tx s :=
    ⟨h, criticalSections_iff.mp h .tx _ _ ho (bne_iff_ne.mpr (hp ▸ past))⟩
  unfold txPhase
  cases hp : c.phase with
  | t1 => exact lockThen_exclusive h h fun u hu => hu.txGoto _
  | t2 => exact (within hp nofun).txGoto _
  | t3 => exact (within hp nofun).txGoto _
  | t4 =>
    have emptied := (within hp nofun).of_sync (sync_setSlots .tx ((s.slots .tx).set c.t.toNat none) s)
    exact emptied.andThen (freeSlotBuf_calm _ _) fun u hu => hu.txGoto _
  | t5 => exact (within hp nofun).andThen (markOwned_calm _ _ _ s) fun u hu => hu.txGoto _
  | t6 => exact txT6_exclusive (within hp nofun) c
  | t7 => exact (within hp nofun).andThen (wrTdt_calm _ s) fun u hu => hu.txGoto _
  | t8 => exact txUnlock_exclusive h codeOk
  | t9 => exact txUnlock_exclusive h codeRingBusy

/-! RX_DRAIN and IRQ_HANDLER (R221 to R228, R241 to R244). -/

theorem rxD3_exclusive {s : State} (h : Within .rx s) (c : RxCtx) : Exclusive (rxD3 c s) := by
  intro t e
  obtain ⟨-, e⟩ := allocThen_eq_next.mp e
  exact (h.of_sync (sync_allocate _ _ s)).rxGoto _ t e

theorem rxD4_exclusive {s : State} (h : Within .rx s) (c : RxCtx) : Exclusive (rxD4 c s) := by
  unfold rxD4
  cases s.slotAt .rx c.next.toNat with
  | none => exact .fault _
  | some cur => exact h.andThen (appendBuf_calm _ _ s) fun u hu => hu.rxGoto _

theorem rxD5_exclusive {s : State} (h : Within .rx s) (c : RxCtx) : Exclusive (rxD5 c s) := by
  unfold rxD5
  cases c.cur with
  | none => exact .fault _
  | some cur => exact h.andThen (deliverBuf_calm _ s) fun u hu => hu.rxGoto _

theorem rxPhase_exclusive {s : State} (h : Within .rx s) (c : RxCtx) : Exclusive (rxPhase c s) := by
  unfold rxPhase
  cases c.phase with
  | d1 => exact h.rxGoto _
  | d2 => exact h.rxGoto _
  | d3 => exact rxD3_exclusive h c
  | d4 => exact rxD4_exclusive h c
  | d5 => exact rxD5_exclusive h c
  | d6 => exact h.andThen (installSlot_calm _ _ _ s) fun u hu => Within.rxGoto (hu.of_sync (by rfl)) _
  | d7 => exact h.andThen (wrRdt_calm _ s) fun u hu => hu.rxGoto _
  | dx => exact h.irqGoto .i4

theorem within_of_drain {s : State} {c : RxCtx} (h : CriticalSections s)
    (ho : s.opOf s.issuer = some (.irqHandler (.i3 c))) : Within .rx s :=
  ⟨h, criticalSections_iff.mp h .rx _ _ ho rfl⟩

theorem irqI0_exclusive {s : State} (h : CriticalSections s) : Exclusive (irqI0 s) := by
  unfold irqI0
  split
  · exact .next h
  · have entered : CriticalSections { s with irqActive := true } := h
    exact exclusive_setOp (o := .irqHandler .i1) entered rfl rfl

theorem irqI1_exclusive {s : State} (h : CriticalSections s) : Exclusive (irqI1 s) :=
  .andThen (.calm h (wrIcr_calm _ s)) fun _ hu => exclusive_setOp hu rfl rfl

theorem irqI4_exclusive {s : State} (h : CriticalSections s) : Exclusive (irqI4 s) := by
  intro t e
  obtain ⟨held, e⟩ := unlockThen_eq_next.mp e
  cases e
  exact (h.leave held .free).of_sync rfl

theorem irqPhase_exclusive {s : State} {p : IrqPhase} (h : CriticalSections s)
    (ho : s.opOf s.issuer = some (.irqHandler p)) : Exclusive (irqPhase p s) := by
  cases p with
  | i0 => exact irqI0_exclusive h
  | i1 => exact irqI1_exclusive h
  | i2 => exact lockThen_exclusive h h fun u hu => hu.irqGoto _
  | i3 c => exact rxPhase_exclusive (within_of_drain h ho) c
  | i4 => exact irqI4_exclusive h

/-! Operations of several phases. -/

theorem lockRetry_exclusive {s : State} (h : CriticalSections s) (r : Ring) : Exclusive (lockRetry r s) :=
  lockThen_exclusive h h fun _ hu => .next (hu.sections.clearOp.of_sync rfl)

theorem proceed_exclusive {s : State} (h : CriticalSections s) : Exclusive (proceed s) := by
  unfold proceed
  split
  · exact .refused _
  cases ho : s.opOf s.issuer with
  | none => exact .next h
  | some o =>
    cases o with
    | lockWait r => exact lockRetry_exclusive h r
    | transmit c => exact txPhase_exclusive h ho
    | irqHandler p => exact irqPhase_exclusive h ho

theorem runPhases_exclusive (n : Nat) {s : State} (h : CriticalSections s) : Exclusive (runPhases n s) := by
  induction n generalizing s with
  | zero => exact .next h
  | succ n ih => exact .andThen (proceed_exclusive h) fun _ => ih

theorem runDrain_exclusive (n : Nat) {s : State} (h : CriticalSections s) : Exclusive (runDrain n s) := by
  induction n generalizing s with
  | zero => exact .next h
  | succ n ih =>
    unfold runDrain
    split
    next c ho => exact .andThen (rxPhase_exclusive (within_of_drain h ho) c) fun _ => ih
    · exact .next h

theorem startTransmit_exclusive {s : State} (h : CriticalSections s) (b : Handle) : Exclusive (startTransmit b s) := by
  intro t e
  obtain ⟨-, -, -, e⟩ := admission_eq_next.mp e
  split at e
  · cases e
  split at e
  · cases e
  obtain ⟨-, -, -, e⟩ := whenSendable_eq_next.mp e
  exact exclusive_setOp h rfl rfl t e

theorem startHandler_exclusive {s : State} (h : CriticalSections s) : Exclusive (startHandler s) := by
  intro t e
  obtain ⟨-, -, -, e⟩ := admission_eq_next.mp e
  split at e
  · cases e
  split at e
  · cases e
  exact exclusive_setOp h rfl rfl t e

theorem startDrain_exclusive {s : State} (h : CriticalSections s) : Exclusive (startDrain s) := by
  intro t e
  obtain ⟨-, -, rfl⟩ := startDrain_eq_next.mp e
  exact h

theorem startOnly_exclusive {i : Instr} {s : State} {x : Result} (h : CriticalSections s)
    (e : startOnly i s = some x) : Exclusive x := by
  cases i
  case transmit b => cases e; exact startTransmit_exclusive h b
  case rxDrain => cases e; exact startDrain_exclusive h
  case irqHandler => cases e; exact startHandler_exclusive h
  all_goals cases e

/-! The instructions and the step. -/

theorem exec_lock_exclusive {s : State} (h : CriticalSections s) (r : Ring) : Exclusive (exec (.lock r) s) := by
  intro t e
  obtain ⟨-, -, -, e⟩ := admission_eq_next.mp e
  have waiting : CriticalSections (s.setOp (.lockWait r)) := h.setOp fun q inside => by cases q <;> cases inside
  exact lockThen_exclusive h waiting (fun u hu => .calm hu.sections (done_calm u)) t e

theorem exec_unlock_exclusive {s : State} (h : CriticalSections s) (r : Ring) : Exclusive (exec (.unlock r) s) := by
  intro t e
  obtain ⟨-, -, idle, e⟩ := admission_eq_next.mp e
  obtain ⟨held, e⟩ := unlockThen_eq_next.mp e
  cases e
  have left : ∀ o, s.opOf s.issuer = some o → o.inside r ≠ true := fun o ho => by cases idle.symm.trans ho
  exact (h.release held left .free).of_sync rfl

theorem exec_exclusive (i : Instr) {s : State} (h : CriticalSections s) : Exclusive (exec i s) := by
  cases hi : synchronises i with
  | false => exact .calm h (exec_calm hi s)
  | true =>
    cases i
    case lock r => exact exec_lock_exclusive h r
    case unlock r => exact exec_unlock_exclusive h r
    case transmit b => exact .andThen (startTransmit_exclusive h b) fun _ => runPhases_exclusive _
    case rxDrain => exact .andThen (startDrain_exclusive h) fun _ => runDrain_exclusive _
    case irqHandler => exact .andThen (startHandler_exclusive h) fun _ => runPhases_exclusive _
    case hwReset =>
      intro t e
      obtain ⟨-, rfl⟩ := exec_hwReset_eq_next.mp e
      exact criticalSections_of_no_ops rfl
    all_goals cases hi

theorem CriticalSections.taking {s : State} (h : CriticalSections s) (a : Agent) (rest : List Event) :
    CriticalSections (s.taking a rest) := h

theorem stepEvent_exclusive (e : Event) (rest : List Event) {s : State} (h : CriticalSections s) :
    Exclusive (stepEvent e rest s) := by
  cases e with
  | issue a w =>
    cases hd : decode w with
    | error x => exact stepEvent_issue_of_decode_error hd a rest s ▸ .refused _
    | ok i => exact stepEvent_issue_of_decode_ok hd a rest s ▸ exec_exclusive i (h.taking a rest)
  | start a w =>
    cases hd : decode w with
    | error x => simpa only [stepEvent, hd] using Exclusive.refused _
    | ok i =>
      rw [stepEvent_start_of_decode_ok hd]
      cases ho : startOnly i (s.taking a rest) with
      | none => exact exec_exclusive i (h.taking a rest)
      | some x => exact startOnly_exclusive (h.taking a rest) ho
  | proceed a => exact proceed_exclusive (h.taking a rest)
  | prepare a b bytes => exact .calm (h.taking a rest) (prepare_calm b bytes _)
  | mutate a r p i off bytes => exact .calm (h.taking a rest) (mutate_calm r p i off bytes _)

theorem step_exclusive {s : State} (h : CriticalSections s) : Exclusive (step s) := by
  cases hin : s.inputs with
  | nil => exact step_of_inputs_nil hin ▸ .next h
  | cons e rest => exact step_of_inputs_cons hin ▸ stepEvent_exclusive e rest h

/-- Two agents inside one critical section both hold its lock, so they are one. -/
theorem CriticalSections.unique {s : State} (h : CriticalSections s) {r : Ring} {a b : Agent} {o p : Op}
    (ha : s.opOf a = some o) (hb : s.opOf b = some p) (ho : o.inside r = true) (hp : p.inside r = true) : a = b :=
  Lock.held.inj ((criticalSections_iff.mp h r a o ha ho).symm.trans (criticalSections_iff.mp h r b p hb hp))

/-- Settles O55: every step is exclusive, and a lock has one holder. -/
theorem stepKeepsCriticalSections : Obligations.StepKeepsCriticalSections := by
  unfold Obligations.StepKeepsCriticalSections
  refine ⟨fun s t h => step_exclusive h t, fun s a b o p h ha hb both => ?_⟩
  rcases both with ⟨ho, hp⟩ | ⟨ho, hp⟩
  · exact h.unique (r := .tx) ha hb ho hp
  · exact h.unique (r := .rx) ha hb ho hp

end Sys2Proof.Machine
end

section
/-! PROOFS. The encoding of operations (spec file 30_encoding.md): decoder and encoder undo each other, a register is
selected by its offset alone, and what spells no operation. -/

namespace Sys2Proof

/-! Words and their fields (R102). -/

theorem ringOf_eq_rx {w : OpWord} : ringOf w = .rx ↔ w.toNat / 2 ^ 8 % 2 = 1 := by
  have bit : w.getLsbD 8 = decide (w.toNat / 2 ^ 8 % 2 = 1) := Nat.testBit_eq_decide_div_mod_eq
  rw [ringOf, bit]
  split <;> simp_all

/-- A word whose reserved field is zero is put together from its other fields. -/
theorem mkWord_fields {w : OpWord} (h : reservedOf w = 0#7) : mkWord (opOf w) (ringOf w) (idxOf w) (argOf w) = w := by
  apply BitVec.eq_of_toNat_eq
  have bound := w.isLt
  have reserved : w.toNat / 2 ^ 9 % 2 ^ 7 = 0 := by
    simpa [reservedOf, Nat.shiftRight_eq_div_pow] using congrArg BitVec.toNat h
  rw [toNat_mkWord]
  simp only [opOf, idxOf, argOf, BitVec.extractLsb'_toNat, Nat.shiftRight_eq_div_pow]
  cases ring : ringOf w with
  | tx =>
    have transmit : ringOf w ≠ .rx := by rw [ring]; nofun
    have := mt ringOf_eq_rx.mpr transmit
    simp only
    omega
  | rx =>
    have := ringOf_eq_rx.mp ring
    simp only
    omega

/-! Registers and their offsets (R21, R101). -/

theorem offset_mta (k : BitVec 7) : (Reg.offset (.mta k)).toNat = 0x5200 + 4 * k.toNat := by
  simp only [Reg.offset, toNat_concat, BitVec.toNat_ofNat]
  omega

theorem offset_aligned (r : Reg) : r.offset.extractLsb' 0 2 = 0#2 := by
  cases r
  case mta k =>
    apply BitVec.eq_of_toNat_eq
    simp only [BitVec.extractLsb'_toNat, offset_mta, Nat.shiftRight_zero, BitVec.toNat_ofNat]
    omega
  all_goals rfl

theorem regAt_offset (r : Reg) : regAt r.offset = some r := by
  cases r
  case mta k =>
    have high : (Reg.offset (.mta k)).extractLsb' 9 7 = 0b0101001#7 := by
      apply BitVec.eq_of_toNat_eq
      have := k.isLt
      simp only [BitVec.extractLsb'_toNat, offset_mta, Nat.shiftRight_eq_div_pow, BitVec.toNat_ofNat]
      omega
    have middle : (Reg.offset (.mta k)).extractLsb' 2 7 = k := by
      apply BitVec.eq_of_toNat_eq
      have := k.isLt
      simp only [BitVec.extractLsb'_toNat, offset_mta, Nat.shiftRight_eq_div_pow]
      omega
    rw [regAt, if_pos ⟨high, offset_aligned _⟩, middle]
  all_goals rfl

theorem offset_mta_of_fields {off : Idx} (high : off.extractLsb' 9 7 = 0b0101001#7) (low : off.extractLsb' 0 2 = 0#2) :
    Reg.offset (.mta (off.extractLsb' 2 7)) = off := by
  apply BitVec.eq_of_toNat_eq
  have := off.isLt
  have high := congrArg BitVec.toNat high
  have low := congrArg BitVec.toNat low
  simp only [BitVec.extractLsb'_toNat, Nat.shiftRight_eq_div_pow, BitVec.toNat_ofNat] at high low
  simp only [offset_mta, BitVec.extractLsb'_toNat, Nat.shiftRight_eq_div_pow]
  omega

/-- One branch of `regAt`'s chain: its register has the offset its test asks for. -/
theorem offset_of_match {c : Prop} [Decidable c] {off : Idx} {q r : Reg} {x : Option Reg} (hq : c → q.offset = off)
    (hx : x = some r → r.offset = off) (h : (if c then some q else x) = some r) : r.offset = off := by
  split at h
  next matched => cases h; exact hq matched
  next => exact hx h

theorem offset_of_regAt {off : Idx} {r : Reg} : regAt off = some r → r.offset = off := by
  unfold regAt
  refine offset_of_match (fun mta => offset_mta_of_fields mta.1 mta.2) ?_
  repeat refine offset_of_match Eq.symm ?_
  nofun

theorem accessAt_offset (r : Reg) (access : Reg → Instr) : accessAt r.offset access = .ok (access r) := by
  rw [accessAt, if_neg (not_not_intro (offset_aligned r)), regAt_offset]

/-- An access succeeds at a register's offset, with that register, and nowhere else (R101). -/
theorem accessAt_eq_ok {off : Idx} {access : Reg → Instr} {i : Instr} :
    accessAt off access = .ok i ↔ ∃ r : Reg, r.offset = off ∧ access r = i := by
  constructor
  · intro h
    unfold accessAt at h
    split at h
    · cases h
    split at h
    next r hr => exact ⟨r, offset_of_regAt hr, Except.ok.inj h⟩
    next => cases h
  · rintro ⟨r, rfl, rfl⟩
    exact accessAt_offset r access

theorem error_of_ne_ok {x : Except DecodeError Instr} (h : ∀ i, x ≠ .ok i) : ∃ e, x = .error e := by
  cases x with
  | error e => exact ⟨e, rfl⟩
  | ok i => exact absurd rfl (h i)

theorem accessAt_error {off : Idx} (h : ∀ r : Reg, off ≠ r.offset) (access : Reg → Instr) :
    ∃ e, accessAt off access = .error e :=
  error_of_ne_ok fun _ e => by
    obtain ⟨r, hr, -⟩ := accessAt_eq_ok.mp e
    exact h r hr.symm

/-! Decoding a word put together from fields (R103, R104). -/

theorem whenUnused_eq_ok {zero : Bool} {i j : Instr} : whenUnused zero i = .ok j ↔ zero = true ∧ i = j := by
  cases zero <;> simp [whenUnused]

theorem decode_of_reserved {w : OpWord} (h : reservedOf w ≠ 0) : decode w = .error .reservedField := if_pos h

theorem decode_mkWord (op : Byte) (r : Ring) (i : Idx) (a : Word) :
    decode (mkWord op r i a) = decodeOp (mkWord op r i a) :=
  if_neg (not_not_intro (reservedOf_mkWord op r i a))

theorem decodeOp_of_code_read {w : OpWord} (code : opOf w = 0x60) :
    decodeOp w = if ringOf w == .tx && argOf w == 0 then accessAt (idxOf w) Reg.read else .error .unusedField := by
  simp [decodeOp, code]

theorem decodeOp_of_code_write {w : OpWord} (code : opOf w = 0x61) :
    decodeOp w = if ringOf w == .tx then accessAt (idxOf w) (Reg.write (argOf w)) else .error .unusedField := by
  simp [decodeOp, code]

theorem decode_read (off : Idx) : decode (mkWord 0x60 .tx off 0) = accessAt off Reg.read := by
  simp [decode_mkWord, decodeOp_of_code_read]

theorem decode_write (off : Idx) (v : Word) : decode (mkWord 0x61 .tx off v) = accessAt off (Reg.write v) := by
  simp [decode_mkWord, decodeOp_of_code_write]

theorem decode_encodeRead (r : Reg) : decode (encodeRead r) = .ok r.read :=
  (decode_read _).trans (accessAt_offset r _)

theorem decode_encodeWrite (r : Reg) (v : Word) : decode (encodeWrite r v) = .ok (r.write v) :=
  (decode_write _ v).trans (accessAt_offset r _)

theorem encode_read (r : Reg) : encode r.read = encodeRead r := by cases r <;> rfl

theorem encode_write (r : Reg) (v : Word) : encode (r.write v) = encodeWrite r v := by cases r <;> rfl

theorem setWidth_extractLsb'_of_high {a : Word} (h : a.extractLsb' 8 24 = 0#24) :
    (a.extractLsb' 0 8).setWidth 32 = a := by
  apply BitVec.eq_of_toNat_eq
  have := a.isLt
  have high := congrArg BitVec.toNat h
  simp only [BitVec.extractLsb'_toNat, Nat.shiftRight_eq_div_pow, BitVec.toNat_ofNat] at high
  simp only [BitVec.toNat_setWidth, BitVec.extractLsb'_toNat, Nat.shiftRight_zero]
  omega

theorem extractLsb'_setWidth_high (c : Byte) : (c.setWidth 32).extractLsb' 8 24 = 0#24 := by
  ext
  simp

theorem extractLsb'_setWidth_low (c : Byte) : (c.setWidth 32).extractLsb' 0 8 = c := by
  rw [BitVec.extractLsb'_setWidth_of_le (by decide), BitVec.extractLsb'_eq_self]

/-- Settles O1: each word is decoded by its code's row, and a register access by its register's offset. -/
theorem decodeUndoesEncode : Obligations.DecodeUndoesEncode := by
  unfold Obligations.DecodeUndoesEncode
  intro i
  cases i
  case rd32Ctrl | rd32Icr | rd32Ims | rd32Rctl | rd32Tctl | rd32Rdbal | rd32Rdbah | rd32Rdlen | rd32Rdh | rd32Rdt |
      rd32Rdtr | rd32Radv | rd32Tdbal | rd32Tdbah | rd32Tdlen | rd32Tdh | rd32Tdt | rd32Ral | rd32Rah | rd32Mta =>
    exact decode_encodeRead _
  case wr32Ctrl | wr32Icr | wr32Ims | wr32Rctl | wr32Tctl | wr32Rdbal | wr32Rdbah | wr32Rdlen | wr32Rdh | wr32Rdt |
      wr32Rdtr | wr32Radv | wr32Tdbal | wr32Tdbah | wr32Tdlen | wr32Tdh | wr32Tdt | wr32Ral | wr32Rah | wr32Mta =>
    exact decode_encodeWrite _ _
  case markHwOwned r i c =>
    simp [encode, decode_mkWord, decodeOp, whenUnused, extractLsb'_setWidth_high, extractLsb'_setWidth_low]
  all_goals simp [encode, decode_mkWord, decodeOp, whenUnused]

/-- What a row of R103's table answers has the word `w`, if the row's instruction has it where the unused fields are
zero. -/
theorem encode_of_whenUnused {zero : Bool} {i j : Instr} {w : OpWord} (row : zero = true → encode i = w)
    (h : whenUnused zero i = .ok j) : encode j = w := by
  obtain ⟨unused, rfl⟩ := whenUnused_eq_ok.mp h
  exact row unused

theorem encode_of_read {off : Idx} {i : Instr} (h : accessAt off Reg.read = .ok i) :
    encode i = mkWord 0x60 .tx off 0 := by
  obtain ⟨r, rfl, rfl⟩ := accessAt_eq_ok.mp h
  exact encode_read r

theorem encode_of_write {off : Idx} {v : Word} {i : Instr} (h : accessAt off (Reg.write v) = .ok i) :
    encode i = mkWord 0x61 .tx off v := by
  obtain ⟨r, rfl, rfl⟩ := accessAt_eq_ok.mp h
  exact encode_write r v

/-- Each row of R103's table answers an instruction with the row's own word. -/
theorem encode_of_decode_mkWord {op : Byte} {r : Ring} {idx : Idx} {a : Word} {i : Instr}
    (h : decode (mkWord op r idx a) = .ok i) : encode i = mkWord op r idx a := by
  simp only [decode_mkWord, decodeOp, opOf_mkWord, ringOf_mkWord, idxOf_mkWord, argOf_mkWord] at h
  split at h
  case h_21 => cases h
  all_goals obtain ⟨-, rfl⟩ := BitVec.toNat_eq_nat.mp ‹op.toNat = _›
  -- MARK_HW_OWNED: `arg` is the command byte with 24 unused bits above it
  case h_5 =>
    refine encode_of_whenUnused (fun high => ?_) h
    rw [encode, setWidth_extractLsb'_of_high (beq_iff_eq.mp high)]
    rfl
  -- INSTALL_BUF
  case h_6 => cases h; rfl
  -- RING_INIT_TX and RING_INIT_RX
  case h_10 =>
    refine encode_of_whenUnused (fun unused => ?_) h
    cases r <;> simp_all [encode]
  -- RD32
  case h_11 =>
    split at h
    next unused =>
      obtain ⟨rfl, rfl⟩ : r = .tx ∧ a = 0 := by simpa using unused
      exact encode_of_read h
    next => cases h
  -- WR32
  case h_12 =>
    split at h
    next unused =>
      obtain rfl : r = .tx := by simpa using unused
      exact encode_of_write h
    next => cases h
  all_goals exact encode_of_whenUnused (fun unused => by simp_all [encode]) h

/-- Settles O2: a word that decodes is put together from its fields, and each row's word is the row's. -/
theorem encodeUndoesDecode : Obligations.EncodeUndoesDecode := by
  unfold Obligations.EncodeUndoesDecode
  intro w i h
  have reserved : reservedOf w = 0 := by
    by_contra nonzero
    rw [decode_of_reserved nonzero] at h
    cases h
  rw [← mkWord_fields reserved] at h ⊢
  exact encode_of_decode_mkWord h

/-- Settles O4: an access succeeds at a register's offset and nowhere else, and the offsets are the table's. -/
theorem registersSelectedByOffset : Obligations.RegistersSelectedByOffset := by
  unfold Obligations.RegistersSelectedByOffset
  refine ⟨?_, fun off v unmapped => ?_, fun off v => ⟨decode_read off, decode_write off v⟩, rfl, rfl, rfl, rfl, rfl,
    rfl, rfl, rfl, rfl, rfl, rfl, rfl, rfl, rfl, rfl, rfl, rfl, rfl, rfl, offset_mta⟩
  · rintro off v r rfl
    exact ⟨accessAt_offset r Reg.read, accessAt_offset r (Reg.write v)⟩
  · exact ⟨accessAt_error unmapped Reg.read, accessAt_error unmapped (Reg.write v)⟩

theorem decode_eq_ok {w : OpWord} {i : Instr} : decode w = .ok i ↔ w = encode i :=
  ⟨fun h => (encodeUndoesDecode w i h).symm, fun h => h ▸ decodeUndoesEncode i⟩

/-- Every instruction's word has an operation code of R103's table. -/
theorem opOf_encode_mem (i : Instr) : (opOf (encode i)).toNat ∈
    [0x01, 0x02, 0x03, 0x10, 0x11, 0x12, 0x20, 0x30, 0x40, 0x50, 0x60, 0x61, 0x80, 0x81, 0x82, 0x8F, 0x90, 0x91, 0x92,
      0x93] := by
  cases i <;> simp [encode, encodeRead, encodeWrite]

theorem decode_error_of_decodeOp {w : OpWord} (h : ∃ e, decodeOp w = .error e) : ∃ e, decode w = .error e := by
  unfold decode
  split
  · exact ⟨_, rfl⟩
  · exact h

theorem guarded_access_error {zero : Bool} {off : Idx} (h : ∀ r : Reg, off ≠ r.offset) (access : Reg → Instr) :
    ∃ e, (if zero then accessAt off access else .error .unusedField) = .error e := by
  split
  · exact accessAt_error h access
  · exact ⟨_, rfl⟩

/-- Settles O5: reserved bits are tested first, a decoded word is an encoder's, and an access needs a register. -/
theorem wordsThatSpellNoOperation : Obligations.WordsThatSpellNoOperation := by
  unfold Obligations.WordsThatSpellNoOperation
  refine fun w => ⟨fun reserved => ⟨_, decode_of_reserved reserved⟩, fun unknown => ?_, fun code unmapped => ?_⟩
  · refine error_of_ne_ok fun i h => unknown ?_
    rw [decode_eq_ok.mp h]
    exact opOf_encode_mem i
  · apply decode_error_of_decodeOp
    rcases code with code | code
    · exact decodeOp_of_code_read code ▸ guarded_access_error unmapped _
    · exact decodeOp_of_code_write code ▸ guarded_access_error unmapped _

/-- Settles O3: each word is the encoder's of its operation. -/
theorem specWordsDecode : Obligations.SpecWordsDecode := by
  unfold Obligations.SpecWordsDecode
  simp only [decode_eq_ok]
  decide

end Sys2Proof
end

section
/-! PROOFS. Operands the spec gives no meaning (R113 d, f, g, R322; spec file 30_encoding.md): each operation's own test
of its operands refuses them, or a test before it. -/

namespace Sys2Proof.Machine

open Sys2Proof

section Refusing

variable {s : State} {x : Refusal} {r : Result}

theorem refuses_ite {c : Prop} [Decidable c] {y : Result} (hy : c → Refuses y) (hr : ¬ c → Refuses r) :
    Refuses (if c then y else r) := by
  split
  · exact hy ‹_›
  · exact hr ‹_›

/-- What is refused on a condition is refused if the other case is. -/
theorem refuses_guard {c : Prop} [Decidable c] (h : ¬ c → Refuses r) : Refuses (if c then .refused x else r) :=
  refuses_ite (fun _ => ⟨x, rfl⟩) h

theorem refuses_of_guard {c : Prop} [Decidable c] (h : c) : Refuses (if c then .refused x else r) :=
  ⟨x, if_pos h⟩

theorem refuses_of_ite_not {c : Prop} [Decidable c] (h : ¬ c) : Refuses (if c then r else .refused x) :=
  ⟨x, if_neg h⟩

theorem refuses_andThen {k : State → Result} (h : Refuses r) : Refuses (andThen r k) := by
  obtain ⟨y, rfl⟩ := h
  exact ⟨y, rfl⟩

theorem refuses_writeReg {c : AgentClass} {w : State → Result} (h : Refuses (w s)) : Refuses (writeReg c w s) :=
  admission_refuses (refuses_andThen h)

theorem refuses_beforeReady {ring : Ring} (h : Refuses r) : Refuses (beforeReady ring s r) := refuses_guard fun _ => h

/-- A port operation of handle 0 (R187 to R189). -/
theorem refuses_port {c : AgentClass} {h : Handle} (noBuffer : (h != 0) = false) :
    Refuses (admission c s (whenHandle h r)) :=
  admission_refuses (refuses_of_guard (bne_eq_false_iff_eq.mp noBuffer))

/-- A control register takes 0 and one other value (R171, R173, R175). -/
theorem refuses_control {v w : Word} {y : Result} (ill : (v == 0 || v == w) = false) :
    Refuses (if v = 0 then y else if v = w then r else .refused x) := by
  obtain ⟨zero, other⟩ : v ≠ 0 ∧ v ≠ w := by simpa using ill
  rw [if_neg zero]
  exact refuses_of_ite_not other

end Refusing

theorem markOwned_refuses {r : Ring} {c : Byte} (h : cmdOk r c = false) (i : Nat) (s : State) :
    Refuses (markOwned r i c s) :=
  refuses_guard fun _ => refuses_guard fun _ => refuses_guard fun _ => refuses_guard fun _ =>
    refuses_of_guard (by rw [h]; rfl)

theorem wrTdt_refuses {v : Word} (h : indexOk v = false) (s : State) : Refuses (wrTdt v s) :=
  refuses_ite (fun _ => refuses_of_ite_not fun zero => by subst zero; cases h) fun _ => refuses_guard fun _ =>
    refuses_of_guard (by simp [h])

theorem wrRdt_refuses {v : Word} (h : indexOk v = false) (s : State) : Refuses (wrRdt v s) :=
  refuses_guard fun _ => refuses_of_guard (by simp [h])

theorem startTransmit_refuses {b : Handle} (noBuffer : (b != 0) = false) (s : State) : Refuses (startTransmit b s) :=
  admission_refuses (refuses_guard fun _ => refuses_of_guard (bne_eq_false_iff_eq.mp noBuffer))

/-- Settles O7: what WellFormed rejects fails the operation's own test, or one before it. -/
theorem illFormedOperationsAreRefused : Obligations.IllFormedOperationsAreRefused := by
  unfold Obligations.IllFormedOperationsAreRefused
  intro i s ill
  cases i
  case markHwOwned r k c => exact admission_refuses (refuses_andThen (markOwned_refuses ill _ s))
  case transmit b => exact refuses_andThen (startTransmit_refuses ill s)
  case free | append | deliver => exact refuses_port ill
  case devRxFrame n => exact admission_refuses (refuses_of_guard (.inl (bne_eq_false_iff_eq.mp ill)))
  case wr32Ctrl | wr32Rctl | wr32Tctl => exact refuses_writeReg (refuses_control ill)
  case wr32Icr => exact refuses_writeReg (refuses_of_ite_not (ne_true_of_eq_false ill))
  case wr32Ims => exact refuses_writeReg (refuses_of_guard (beq_eq_false_iff_ne.mp ill))
  case wr32Rdbal | wr32Tdbal | wr32Rdlen | wr32Tdlen =>
    exact refuses_writeReg (refuses_beforeReady (refuses_of_ite_not (ne_true_of_eq_false ill)))
  case wr32Rdh | wr32Tdh =>
    exact refuses_writeReg (refuses_beforeReady (refuses_of_ite_not (beq_eq_false_iff_ne.mp ill)))
  case wr32Rdt => exact refuses_writeReg (wrRdt_refuses ill s)
  case wr32Tdt => exact refuses_writeReg (wrTdt_refuses ill s)
  case wr32Rdtr | wr32Radv => exact refuses_writeReg (refuses_of_ite_not (beq_eq_false_iff_ne.mp ill))
  all_goals cases ill

end Sys2Proof.Machine
end

section
/-! PROOFS. The register accesses (R140 to R177; spec file 40_register_access.md): a read returns its register's value; a
write takes place exactly where its register's rule admits it, and is refused elsewhere. -/

namespace Sys2Proof.Machine

open Sys2Proof

/-! The rule of a write: the condition that admits it, and the state it then leads to. -/

theorem writeReg_next {c : AgentClass} {s t : State} {w : State → Result} (can : CanIssue c s) (h : w s = .next t) :
    writeReg c w s = .next (t.respond codeOk 0) := by
  rw [writeReg_of_canIssue can, h, andThen_next, done]

/-- A register that takes every value (R177). -/
theorem writeReg_store {c : AgentClass} {s : State} (can : CanIssue c s) (f : State → State) :
    writeReg c (fun t => .next (f t)) s = .next ((f s).respond codeOk 0) := writeReg_next can rfl

/-- The outcome is the next state `t` where `p` holds and a refusal elsewhere (R141, R322). -/
structure AdmittedWhen (p : Prop) (t : State) (r : Result) : Prop where
  next : p → r = .next t
  refuses : ¬ p → Refuses r

namespace AdmittedWhen

variable {p q c : Prop} {s t : State} {r : Result} {x : Refusal}

theorem always : AdmittedWhen True t (.next t) := ⟨fun _ => rfl, fun h => absurd trivial h⟩

theorem congr (h : AdmittedWhen p t r) (e : p ↔ q) : AdmittedWhen q t r :=
  ⟨fun hq => h.next (e.mpr hq), fun hq => h.refuses (hq ∘ e.mp)⟩

/-- A test that refuses where `c` fails. -/
theorem guard [Decidable c] (h : AdmittedWhen p t r) : AdmittedWhen (c ∧ p) t (if c then r else .refused x) where
  next := fun ⟨hc, hp⟩ => (if_pos hc).trans (h.next hp)
  refuses := fun no => refuses_ite (fun hc => h.refuses fun hp => no ⟨hc, hp⟩) fun _ => ⟨x, rfl⟩

/-- A test that refuses where `c` holds. -/
theorem guardNot [Decidable c] (h : AdmittedWhen p t r) : AdmittedWhen (¬ c ∧ p) t (if c then .refused x else r) where
  next := fun ⟨hc, hp⟩ => (if_neg hc).trans (h.next hp)
  refuses := fun no => refuses_guard fun hc => h.refuses fun hp => no ⟨hc, hp⟩

/-- A case that is admitted before the others are looked at. -/
theorem orElse [Decidable c] (h : AdmittedWhen p t r) : AdmittedWhen (c ∨ p) t (if c then .next t else r) where
  next := fun e => ite_eq_left_iff.mpr fun hc => h.next (e.resolve_left hc)
  refuses := fun no => refuses_ite (fun hc => absurd (.inl hc) no) fun _ => h.refuses (no ∘ .inr)

/-- The test that decides alone. -/
theorem test [Decidable c] : AdmittedWhen c t (if c then .next t else .refused x) :=
  always.guard.congr (and_iff_left trivial)

/-- A register that is written before its ring's construction only (R49). -/
theorem beforeReady (h : AdmittedWhen p t r) (ring : Ring) :
    AdmittedWhen (ringReady ring s = false ∧ p) t (beforeReady ring s r) :=
  h.guardNot.congr (and_congr_left' (Bool.not_eq_true _).to_iff)

/-- A write from the right context follows its register's rule (R141). -/
theorem writeReg {cls : AgentClass} {w : State → Result} (can : CanIssue cls s) (h : AdmittedWhen p t (w s)) :
    AdmittedWhen p (t.respond codeOk 0) (writeReg cls w s) where
  next := fun hp => writeReg_next can (h.next hp)
  refuses := fun hp => refuses_writeReg (h.refuses hp)

/-- A write that took place was admitted, and led to the rule's state. -/
theorem eq_next {u : State} (h : AdmittedWhen p t r) (e : r = .next u) : p ∧ t = u := by
  by_cases hp : p
  · rw [h.next hp] at e
    cases e
    exact ⟨hp, rfl⟩
  · obtain ⟨x, hx⟩ := h.refuses hp
    rw [hx] at e
    cases e

/-- The rule as the claims write it. -/
theorem rule [Decidable p] (h : AdmittedWhen p t r) : if p then r = .next t else Refuses r := by
  split
  · exact h.next ‹_›
  · exact h.refuses ‹_›

end AdmittedWhen

/-! Reads (R140 to R176). -/

theorem readReg_of_canIssue {s : State} (can : CanIssue .host s) (v : Word) :
    readReg v s = .next (s.respond codeOk v) := admission_of_canIssue can

/-- Settles O10: an admitted read answers the register's value; no bit of CTRL reads as 1. -/
theorem registerReads : Obligations.RegisterReads := by
  unfold Obligations.RegisterReads
  refine fun s can => ⟨?tdt, ?rdt, ?tdh, ?rdh, ?ctrl, ?ims, ?rctl, ?tctl, ?tdbal, ?tdbah, ?tdlen, ?rdbal, ?rdbah, ?rdlen,
    ?rdtr, ?radv, ?ral, ?rah, fun k => ?mta⟩
  case ctrl =>
    have unreadable : s.regs.ctrl &&& Config.ctrlReadable = 0 := BitVec.and_zero
    exact unreadable ▸ readReg_of_canIssue can _
  all_goals exact readReg_of_canIssue can _

/-- Settles O11: what admission lets through is refused by name. -/
theorem causeReadIsRefused : Obligations.CauseReadIsRefused := by
  unfold Obligations.CauseReadIsRefused
  exact fun s => ⟨admission_refuses ⟨_, rfl⟩, admission_of_canIssue⟩

/-! Heads, geometry, delays, enables and filters (R150 to R169, R173 to R177). -/

/-- Settles O12: each register's test of the value, behind the test that its ring is not constructed. -/
theorem headAndGeometryWrites : Obligations.HeadAndGeometryWrites := by
  unfold Obligations.HeadAndGeometryWrites
  refine fun s v can => ⟨?tdh, ?rdh, ?tdbal, ?tdbah, ?tdlen, ?rdbal, ?rdbah, ?rdlen⟩
  case tdh => exact ((AdmittedWhen.test.beforeReady .tx).writeReg can).rule
  case rdh => exact ((AdmittedWhen.test.beforeReady .rx).writeReg can).rule
  case tdbal => exact (((AdmittedWhen.test.congr (baseLowOk_iff v)).beforeReady .tx).writeReg can).rule
  case rdbal => exact (((AdmittedWhen.test.congr (baseLowOk_iff v)).beforeReady .rx).writeReg can).rule
  case tdbah => exact (((AdmittedWhen.always.beforeReady .tx).congr (and_iff_left trivial)).writeReg can).rule
  case rdbah => exact (((AdmittedWhen.always.beforeReady .rx).congr (and_iff_left trivial)).writeReg can).rule
  case tdlen => exact (((AdmittedWhen.test.congr (lengthOk_iff v)).beforeReady .tx).writeReg can).rule
  case rdlen => exact (((AdmittedWhen.test.congr (lengthOk_iff v)).beforeReady .rx).writeReg can).rule

theorem wrRctl_admittedWhen (v : Word) (s : State) :
    AdmittedWhen (v = 0 ∨ v = 0x2 ∧ s.rxReady = true ∧ s.regs.rdtr = 0 ∧ s.regs.radv = 0)
      { s with regs := { s.regs with rctl := v } } (wrRctl v s) := by
  have ready : (s.rxReady && s.regs.rdtr == 0 && s.regs.radv == 0) = true ↔
      s.rxReady = true ∧ s.regs.rdtr = 0 ∧ s.regs.radv = 0 := by
    simp only [Bool.and_eq_true, beq_iff_eq, and_assoc]
  exact (AdmittedWhen.test.congr ready).guard.orElse

theorem wrTctl_admittedWhen (v : Word) (s : State) :
    AdmittedWhen (v = 0 ∨ v = 0x2 ∧ s.txReady = true) { s with regs := { s.regs with tctl := v } } (wrTctl v s) :=
  AdmittedWhen.test.guard.orElse

/-- Settles O13: each register's test of the value; a filter register has none. -/
theorem delayEnableAndFilterWrites : Obligations.DelayEnableAndFilterWrites := by
  unfold Obligations.DelayEnableAndFilterWrites
  refine fun s v can => ⟨?rdtr, ?radv, ?rctl, ?tctl, ?ral, ?rah, fun k => ?mta⟩
  case rdtr | radv => exact (AdmittedWhen.test.writeReg can).rule
  case rctl => exact ((wrRctl_admittedWhen v s).writeReg can).rule
  case tctl => exact ((wrTctl_admittedWhen v s).writeReg can).rule
  case ral => exact writeReg_store can fun t => { t with regs := { t.regs with ral := v } }
  case rah => exact writeReg_store can fun t => { t with regs := { t.regs with rah := v } }
  case mta =>
    have stored := writeReg_store can fun t => { t with regs := { t.regs with mta := t.regs.mta.set k.toNat v k.isLt } }
    refine ⟨_, stored, rfl, ?written, fun j other => ?others⟩
    case written => exact Vector.getElem_set_self k.isLt
    case others => exact Vector.getElem_set_ne k.isLt j.isLt other.symm

/-! The control register (R171, R331). -/

theorem quiet_iff {s : State} : quiet s = true ↔ s.ops = [] ∧ s.txLock = .free ∧ s.rxLock = .free := by
  simp only [quiet, Bool.and_eq_true, List.isEmpty_iff, beq_iff_eq, and_assoc]

theorem wrCtrl_rst_admittedWhen (s : State) :
    AdmittedWhen (s.ops = [] ∧ s.txLock = .free ∧ s.rxLock = .free) (blockReset s) (wrCtrl ctrlRst s) :=
  AdmittedWhen.test.congr quiet_iff

/-- Settles O14: 0 leaves the state, RST resets a quiet block, and CTRL takes nothing else. -/
theorem controlWrites : Obligations.ControlWrites := by
  unfold Obligations.ControlWrites
  intro s can
  have rst : AdmittedWhen _ _ (exec (.wr32Ctrl 0x04000000) s) := (wrCtrl_rst_admittedWhen s).writeReg can
  refine ⟨?zero, fun v zero other => ?other, fun busy => ?busy, fun idle tx rx => ?reset⟩
  case zero => exact writeReg_next can (wrCtrl_eq_next.mpr (.inl ⟨rfl, rfl⟩))
  case other => exact refuses_writeReg (refuses_control (Bool.or_eq_false_iff.mpr
      ⟨beq_eq_false_iff_ne.mpr zero, beq_eq_false_iff_ne.mpr other⟩))
  case busy => exact rst.refuses fun ⟨idle, tx, rx⟩ => busy.elim (· idle) (·.elim (· tx) (· rx))
  case reset =>
    obtain ⟨running, -, -⟩ := can
    have line : irqLine ((blockReset s).respond codeOk 0) = false := irqLine_of_no_cause rfl
    exact ⟨_, rst.next ⟨idle, tx, rx⟩, rfl, rfl, rfl, rfl, rfl, rfl, rfl, rfl, rfl, rfl, rfl, rfl, rfl, rfl, rfl, rfl, rfl,
      line, tx, rx, rfl, running, rfl, idle, rfl⟩

/-! The tail registers (R143, R145). -/

theorem holdsLock_iff {r : Ring} {s : State} : s.holdsLock r = true ↔ s.lockOf r = .held s.issuer := beq_iff_eq

/-- The test of a tail's value: a reserved bit is set, or it names no slot (R143, R145). -/
theorem tailOutOfRange_iff (v : Word) (n : Nat) :
    (!indexOk v || n ≤ indexField v) = true ↔ v.extractLsb' 16 16 ≠ 0 ∨ n ≤ (v.extractLsb' 0 16).toNat := by
  rw [Bool.or_eq_true, Bool.not_eq_true', decide_eq_true_iff, ← Bool.not_eq_true, indexOk_iff]
  rfl

theorem wrRdt_admittedWhen (v : Word) (s : State) :
    AdmittedWhen
      (¬ (s.rxReady = true ∧ s.rxLock ≠ .held s.issuer) ∧
        ¬ (v.extractLsb' 16 16 ≠ 0 ∨ ringSize .rx s ≤ (v.extractLsb' 0 16).toNat))
      { s with regs := { s.regs with rdt := v } } (wrRdt v s) := by
  have unheld : (s.rxReady && !s.holdsLock .rx) = true ↔ s.rxReady = true ∧ s.rxLock ≠ .held s.issuer := by
    rw [Bool.and_eq_true, Bool.not_eq_true', ← Bool.not_eq_true, holdsLock_iff]
    rfl
  refine AdmittedWhen.always.guardNot.guardNot.congr (and_congr (not_congr unheld) ?_)
  rw [and_iff_left trivial, tailOutOfRange_iff]

/-- Settles O16: the lock's test after construction, then the value's. -/
theorem receiveTailWrite : Obligations.ReceiveTailWrite := by
  unfold Obligations.ReceiveTailWrite
  intro s v can
  have write : AdmittedWhen _ _ (exec (.wr32Rdt v) s) := (wrRdt_admittedWhen v s).writeReg can
  split_ifs with unheld range
  · exact write.refuses fun ⟨held, _⟩ => held unheld
  · exact write.refuses fun ⟨_, fits⟩ => fits range
  · exact write.next ⟨unheld, range⟩

theorem wrTdt_unready_admittedWhen {s : State} (unready : s.txReady = false) (v : Word) :
    AdmittedWhen (v = 0) { s with regs := { s.regs with tdt := 0 } } (wrTdt v s) := by
  rw [wrTdt, if_pos (by simp [unready])]
  exact AdmittedWhen.test

/-- The state after an admitted commit (R143). -/
def committed (v : Word) (s : State) : State :=
  { s with
    regs := { s.regs with tdt := v }
    txPending := s.txPending + ringDist (tailIndex .tx s) (indexField v) (ringSize .tx s) }

theorem wrTdt_ready_admittedWhen {s : State} (ready : s.txReady = true) (v : Word) :
    AdmittedWhen
      (s.txLock = .held s.issuer ∧
        ¬ (v.extractLsb' 16 16 ≠ 0 ∨ ringSize .tx s ≤ (v.extractLsb' 0 16).toNat) ∧
        ¬ ringSize .tx s < s.txPending + ringDist (tailIndex .tx s) (indexField v) (ringSize .tx s))
      (committed v s) (wrTdt v s) := by
  have held : ¬ (!s.holdsLock .tx) = true ↔ s.txLock = .held s.issuer := by
    rw [Bool.not_eq_true', Bool.not_eq_false, holdsLock_iff]
    rfl
  rw [wrTdt, if_neg (by simp [ready])]
  refine AdmittedWhen.always.guardNot.guardNot.guardNot.congr (and_congr held ?_)
  rw [and_iff_left trivial, tailOutOfRange_iff]

/-! The slots a commit makes available (R284). -/

theorem inHwset_iff {i : Nat} {s : State} :
    inHwset i s = true ↔ ∃ k < s.txPending, (headIndex .tx s + k) % ringSize .tx s = i := by
  simp only [inHwset, List.any_eq_true, List.mem_range, beq_iff_eq]

/-- The distance forward to a slot is how many steps lead to it (R180). -/
theorem ringDist_add_mod {a j n : Nat} (ha : a < n) (hj : j < n) : ringDist a ((a + j) % n) n = j := by
  rw [ringDist, Nat.mod_eq_of_lt ha, Nat.mod_add_mod, show a + j + (n - a) = j + n by omega, Nat.add_mod_right,
    Nat.mod_eq_of_lt hj]

/-- The slots nearer than `d` are those fewer than `d` steps lead to. -/
theorem ringDist_lt_iff {a b d n : Nat} (ha : a < n) (hb : b < n) (hd : d ≤ n) :
    ringDist a b n < d ↔ ∃ j < d, (a + j) % n = b := by
  constructor
  · exact fun near => ⟨_, near, add_ringDist_mod ha hb⟩
  · rintro ⟨j, hj, rfl⟩
    rwa [ringDist_add_mod ha (by omega)]

/-- The first `p + d` slots from the head are the first `p` and the `d` from the tail after them. -/
theorem exists_lt_add_slot {head p d n i tail : Nat} (h : tail = (head + p) % n) :
    (∃ k < p + d, (head + k) % n = i) ↔
      (∃ k < p, (head + k) % n = i) ∨ ∃ j < d, (tail + j) % n = i := by
  simp only [h, Nat.mod_add_mod, Nat.add_assoc]
  constructor
  · rintro ⟨k, hk, slot⟩
    by_cases old : k < p
    · exact .inl ⟨k, old, slot⟩
    · exact .inr ⟨k - p, by omega, by rwa [Nat.add_sub_cancel' (by omega)]⟩
  · rintro (⟨k, hk, slot⟩ | ⟨j, hj, slot⟩)
    · exact ⟨k, by omega, slot⟩
    · exact ⟨p + j, by omega, slot⟩

/-- A commit makes available the slots from the old tail to the one before the new (R143, R284). -/
theorem inHwset_committed {s : State} (legal : TxLegal s) (ready : s.txReady = true) (v : Word) {i : Nat}
    (hi : i < ringSize .tx s) :
    inHwset i (committed v s) = true ↔ inHwset i s = true ∨
      ringDist (tailIndex .tx s) i (ringSize .tx s) < ringDist (tailIndex .tx s) (indexField v) (ringSize .tx s) := by
  obtain ⟨-, -, -, tail⟩ := legal.ring ready
  have short : ringDist (tailIndex .tx s) (indexField v) (ringSize .tx s) < ringSize .tx s := ringDist_lt (by omega)
  rw [ringDist_lt_iff (legal.tail_lt ready) hi short.le, inHwset_iff, inHwset_iff]
  exact exists_lt_add_slot tail

/-- Settles O15: the tail's tests by whether the ring is constructed, and the slots of an admitted commit. -/
theorem transmitTailWrite : Obligations.TransmitTailWrite := by
  unfold Obligations.TransmitTailWrite
  refine fun s v can => ⟨?write, fun t i legal ready e hi => ?slots⟩
  case write =>
    split
    · exact ((wrTdt_unready_admittedWhen ‹_› v).writeReg can).rule
    next ready =>
      have write : AdmittedWhen _ _ (exec (.wr32Tdt v) s) :=
        (wrTdt_ready_admittedWhen (Bool.not_eq_false _ ▸ ready) v).writeReg can
      split_ifs with unheld range excess
      · exact write.refuses fun ⟨held, _⟩ => unheld held
      · exact write.refuses fun ⟨_, fits, _⟩ => fits range
      · exact write.refuses fun ⟨_, _, free⟩ => free excess
      · exact write.next ⟨not_not.mp unheld, range, excess⟩
  case slots =>
    have write : AdmittedWhen _ _ (exec (.wr32Tdt v) s) := (wrTdt_ready_admittedWhen ready v).writeReg can
    obtain ⟨-, rfl⟩ := write.eq_next e
    exact inHwset_committed legal ready v hi

end Sys2Proof.Machine
end

section
/-! PROOFS. The ring operations and the collaborator ports (R180 to R189; spec file 41_ring_primitives.md): what each
does where its tests let it through, and that it is refused or faults elsewhere. -/

namespace Sys2Proof.Machine

open Sys2Proof

/-! Ring arithmetic (R180). -/

theorem iterate_ringNext {n i : Nat} (hi : i < n) (k : Nat) : (fun j => ringNext j n)^[k] i = (i + k) % n := by
  induction k with
  | zero => exact (Nat.mod_eq_of_lt hi).symm
  | succ k ih => rw [Function.iterate_succ_apply', ih, ringNext, Nat.mod_add_mod, Nat.add_assoc]

/-- DIST over the integers (R180). -/
theorem ringDist_eq_emod {a n : Nat} (ha : a < n) (b : Nat) : (ringDist a b n : Int) = ((b : Int) - a) % n := by
  have lifted : ((b + (n - a) : Nat) : Int) = (b : Int) - a + n := by omega
  rw [ringDist, Nat.mod_eq_of_lt ha, Int.natCast_emod, lifted, Int.add_emod_right]

theorem ringDist_self {a n : Nat} (ha : a < n) : ringDist a a n = 0 := by
  rw [ringDist, Nat.mod_eq_of_lt ha, Nat.add_sub_cancel' ha.le, Nat.mod_self]

/-- Settles O60: NEXT iterated `k` times adds `k`, and DIST counts the steps to a slot. -/
theorem ringArithmetic : Obligations.RingArithmetic := by
  unfold Obligations.RingArithmetic
  intro n i a b pos top hi ha hb
  have next : ringNext i n < n := ringNext_lt pos
  refine ⟨rfl, ringDist_eq_emod ha b, next, ringDist_lt pos, by omega, ?wrap, fun inner => ?successor, ?round,
    fun several => ringDist_add_mod ha several, ringDist_self ha, rfl⟩
  case wrap => rw [ringNext, Nat.sub_add_cancel pos, Nat.mod_self]
  case successor => exact Nat.mod_eq_of_lt (by omega)
  case round => rw [iterate_ringNext hi, Nat.add_mod_right, Nat.mod_eq_of_lt hi]

/-! One byte of memory, and where a descriptor's bytes lie (R76). -/

theorem byteAt_storeByte_self (a : Addr) (v : Byte) (s : State) : (s.storeBytes a [v]).byteAt a = v :=
  Memory.read_write_self s.mem a.toNat v

theorem byteAt_storeByte_other {a c : Addr} (h : c ≠ a) (v : Byte) (s : State) :
    (s.storeBytes a [v]).byteAt c = s.byteAt c :=
  Memory.read_write_other s.mem (fun e => h (BitVec.eq_of_toNat_eq e)) v

@[simp] theorem byteAt_respond (a : Addr) (c : Byte) (v : Word) (s : State) :
    (s.respond c v).byteAt a = s.byteAt a := rfl

@[simp] theorem descStatus_respond (r : Ring) (i : Nat) (c : Byte) (v : Word) (s : State) :
    descStatus r i (s.respond c v) = descStatus r i s := by
  cases r <;> rfl

@[simp] theorem txdCmd_respond (i : Nat) (c : Byte) (v : Word) (s : State) :
    txdCmd i (s.respond c v) = txdCmd i s := rfl

theorem add_ofNat_injective {a : Addr} {m n : Nat} (hm : m < 2 ^ 64) (hn : n < 2 ^ 64)
    (h : a + BitVec.ofNat 64 m = a + BitVec.ofNat 64 n) : m = n := by
  have same := congrArg BitVec.toNat (BitVec.add_right_inj a |>.mp h)
  rwa [BitVec.toNat_ofNat, BitVec.toNat_ofNat, Nat.mod_eq_of_lt hm, Nat.mod_eq_of_lt hn] at same

/-! The ring operations: their tests, then what they do (R182 to R184). -/

namespace AdmittedWhen

variable {p : Prop} {s t : State} {x : Result} {y : Refusal} {b : Bool}

/-- A test that refuses where a flag is not set. -/
theorem requires (h : AdmittedWhen p t x) : AdmittedWhen (b = true ∧ p) t (if !b then .refused y else x) :=
  h.guardNot.congr (and_congr_left' (by rw [Bool.not_eq_true', Bool.not_eq_false]))

theorem required : AdmittedWhen (b = true) t (if !b then .refused y else .next t) :=
  always.requires.congr (and_iff_left trivial)

theorem admission {cls : AgentClass} (can : CanIssue cls s) (h : AdmittedWhen p t x) :
    AdmittedWhen p t (admission cls s x) := by
  rwa [admission_of_canIssue can]

theorem andThen {k : State → Result} (h : AdmittedWhen p s x) (hk : k s = .next t) :
    AdmittedWhen p t (andThen x k) where
  next := fun hp => by rw [h.next hp, andThen_next, hk]
  refuses := fun hp => refuses_andThen (h.refuses hp)

end AdmittedWhen

section Primitives

variable {r : Ring} {s : State}

/-- What every ring operation tests first: the ring's lock, its construction and the slot's index (U21, D25, R113 e). -/
def SlotReachable (r : Ring) (i : Nat) (s : State) : Prop :=
  s.lockOf r = .held s.issuer ∧ ringReady r s = true ∧ i < ringSize r s

theorem AdmittedWhen.slotTests {p : Prop} {t : State} {x : Result} {i : Nat} (h : AdmittedWhen p t x) :
    AdmittedWhen (SlotReachable r i s ∧ p) t
      (if !s.holdsLock r then .refused .lockNotHeld
       else if !ringReady r s then .refused .ringNotConstructed
       else if ringSize r s ≤ i then .refused .slotOutOfRange
       else x) :=
  h.guardNot.requires.requires.congr (by simp only [SlotReachable, holdsLock_iff, Nat.not_le, and_assoc])

theorem slotStatus_admittedWhen (can : CanIssue (ringClass r) s) (i : Idx) :
    AdmittedWhen (SlotReachable r i.toNat s ∧ ringInMemory r s = true)
      (s.respond codeOk ((descStatus r i.toNat s).setWidth 32)) (exec (.slotStatus r i) s) :=
  .admission can AdmittedWhen.required.slotTests

/-- The state after MARK_HW_OWNED (R182). -/
def marked (r : Ring) (i : Nat) (c : Byte) (s : State) : State :=
  match r with
  | .tx => setDescStatus .tx i 0 (setTxdCmd i c s)
  | .rx => setDescStatus .rx i 0 s

theorem markOwned_admittedWhen (r : Ring) (i : Nat) (c : Byte) (s : State) :
    AdmittedWhen (SlotReachable r i s ∧ ringInMemory r s = true ∧ cmdOk r c = true) (marked r i c s)
      (markOwned r i c s) := by
  cases r <;> exact AdmittedWhen.required.requires.slotTests

theorem cmdOk_iff {c : Byte} : cmdOk r c = true ↔ (r = .tx → c &&& ~~~0x09 = 0) ∧ (r = .rx → c = 0) := by
  cases r <;> simp [cmdOk, cmdMask]

theorem marked_frame (i : Nat) (c : Byte) : marked r i c s = { s with mem := (marked r i c s).mem } := by
  cases r <;> rfl

theorem descStatus_setDescStatus (r : Ring) (i : Nat) (v : Byte) (s : State) :
    descStatus r i (setDescStatus r i v s) = v := by
  rw [descStatus, descAddr_congr (setDescStatus_regs r i v s)]
  exact byteAt_storeByte_self _ v s

theorem descStatus_marked (i : Nat) (c : Byte) : descStatus r i (marked r i c s) = 0 := by
  cases r with
  | tx => exact descStatus_setDescStatus .tx i 0 _
  | rx => exact descStatus_setDescStatus .rx i 0 s

theorem txdCmd_marked (i : Idx) (c : Byte) : txdCmd i.toNat (marked .tx i.toNat c s) = c := by
  have apart : descAddr .tx i.toNat offCmd s ≠ descAddr .tx i.toNat offStatus s := by
    intro same
    have offsets := add_ofNat_injective (by have := i.isLt; simp only [Config.descBytes, offCmd]; omega)
      (by have := i.isLt; simp only [Config.descBytes, offStatus]; omega) same
    simp only [offCmd, offStatus] at offsets
    omega
  exact (byteAt_storeByte_other apart 0 _).trans (byteAt_storeByte_self _ c s)

theorem byteAt_marked_tx {i : Nat} {a : Addr} (c : Byte) (cmd : a ≠ descAddr .tx i offCmd s)
    (status : a ≠ descAddr .tx i offStatus s) : (marked .tx i c s).byteAt a = s.byteAt a :=
  (byteAt_storeByte_other status 0 _).trans (byteAt_storeByte_other cmd c s)

theorem byteAt_marked_rx {i : Nat} {a : Addr} (c : Byte) (status : a ≠ descAddr .rx i offStatus s) :
    (marked .rx i c s).byteAt a = s.byteAt a :=
  byteAt_storeByte_other status 0 s

end Primitives

/-- Settles O19: the byte is read behind the tests of the lock, the construction, the index and the memory. -/
theorem slotStatusReads : Obligations.SlotStatusReads := by
  unfold Obligations.SlotStatusReads
  exact fun s r i can => ((slotStatus_admittedWhen can i).congr (by simp only [SlotReachable, and_assoc]; rfl)).rule

/-- Settles O20: behind its tests the operation stores the command byte (transmit) and then the status byte. -/
theorem markHwOwnedWrites : Obligations.MarkHwOwnedWrites := by
  unfold Obligations.MarkHwOwnedWrites
  intro s r i c can
  have mark : AdmittedWhen _ ((marked r i.toNat c s).respond codeOk 0) (exec (.markHwOwned r i c) s) :=
    .admission can ((markOwned_admittedWhen r i.toNat c s).andThen rfl)
  simp only [SlotReachable, cmdOk_iff, and_assoc] at mark
  split
  next admitted =>
    refine ⟨_, mark.next admitted, congrArg (State.respond codeOk 0) (marked_frame _ c), ?status, ?bytes⟩
    case status => rw [descStatus_respond, descStatus_marked]
    case bytes =>
      cases r with
      | tx =>
        simp only [txdCmd_respond, byteAt_respond]
        exact ⟨txdCmd_marked i c, fun a cmd status => byteAt_marked_tx c cmd status⟩
      | rx => exact fun a status => byteAt_marked_rx c status
  next refused => exact mark.refuses refused

/-! INSTALL_BUF (R183). -/

theorem holderOf_of_bufOf {h : Handle} {b : Buffer} {s : State} (live : s.bufOf h = some b) : s.holderOf h = b.holder := by
  rw [State.holderOf, live]

theorem holderOf_of_pool {h : Handle} {s : State} (pool : s.bufOf h = none) : s.holderOf h = .pool := by
  rw [State.holderOf, pool]

theorem installHolder_of_live {h : Handle} {b : Buffer} {s : State} (live : s.bufOf h = some b) (r : Ring) (i : Nat) :
    s.installHolder h r i = s.setBuf h { b with holder := .ring r i } := by
  rw [State.installHolder, live]

section Install

variable {r : Ring} {i : Nat} {h : Handle} {b : Buffer} {s : State}

/-- The state after buffer `b` of handle `h` went into a slot (R183). -/
def installed (h : Handle) (b : Buffer) (r : Ring) (i : Nat) (s : State) : State :=
  (s.setSlot r i (some h)).setBuf h { b with holder := .ring r i }

theorem installSlot_refuses (no : ¬ SlotReachable r i s) (x : Option Handle) : Refuses (installSlot r i x s) :=
  refuses_guard fun held => refuses_guard fun ready => refuses_guard fun within =>
    absurd ⟨by simpa [holdsLock_iff] using held, by simpa using ready, by simpa using within⟩ no

theorem installSlot_none (reach : SlotReachable r i s) : installSlot r i none s = .next (s.setSlot r i none) := by
  obtain ⟨held, ready, within⟩ := reach
  exact installSlot_eq_next.mpr ⟨held, ready, within, .inl ⟨rfl, rfl⟩⟩

theorem installSlot_some (reach : SlotReachable r i s) :
    installSlot r i (some h) s =
      if inOtherSlot h r i s then .refused .bufferElsewhere
      else liveThen h s (fun t => .next ((t.setSlot r i (some h)).installHolder h r i)) := by
  obtain ⟨held, ready, within⟩ := reach
  simp [installSlot, holdsLock_iff.mpr held, ready, Nat.not_le.mpr within]

theorem installSlot_live (reach : SlotReachable r i s) (only : inOtherSlot h r i s = false) (live : s.bufOf h = some b) :
    installSlot r i (some h) s = .next (installed h b r i s) := by
  have kept : (s.setSlot r i (some h)).bufOf h = some b := by rw [← live]; cases r <;> rfl
  rw [installSlot_some reach, only, if_neg Bool.false_ne_true, liveThen, live]
  exact congrArg Host.Outcome.next (installHolder_of_live kept r i)

theorem installSlot_pool (reach : SlotReachable r i s) (only : inOtherSlot h r i s = false) (pool : s.bufOf h = none)
    (object : pooledBuffer h s = some b) :
    installSlot r i (some h) s = .next (installed h b r i { s with draws := s.draws + 1 }) := by
  have drawn : ({ s.setBuf h b with draws := s.draws + 1 } : State) =
      ({ s with draws := s.draws + 1 } : State).setBuf h b := rfl
  rw [installSlot_some reach, only, if_neg Bool.false_ne_true, liveThen, pool, object]
  simp only [drawn, setSlot_setBuf, installHolder_setBuf, installed]

theorem installSlot_noRoom (reach : SlotReachable r i s) (pool : s.bufOf h = none) (full : pooledBuffer h s = none) :
    Refuses (installSlot r i (some h) s) := by
  rw [installSlot_some reach, liveThen, pool, full]
  exact refuses_guard fun _ => ⟨_, rfl⟩

theorem installed_frame (h : Handle) (b : Buffer) (r : Ring) (i : Nat) (s : State) (d : Nat) :
    installed h b r i { s with draws := d } =
      { s.setSlots r ((s.slots r).set i (some h)) with
        bufs := (installed h b r i { s with draws := d }).bufs
        draws := (installed h b r i { s with draws := d }).draws } := by
  cases r <;> rfl

theorem installed_draws (h : Handle) (b : Buffer) (r : Ring) (i : Nat) (s : State) :
    (installed h b r i s).draws = s.draws := setSlot_draws r i _ s

theorem bufOf_installed_self : (installed h b r i s).bufOf h = some { b with holder := .ring r i } :=
  bufOf_setBuf_self h _ _

theorem otherBuffersSame_installed (h : Handle) (b : Buffer) (r : Ring) (i : Nat) (s : State) (d : Nat) :
    OtherBuffersSame h s (installed h b r i { s with draws := d }) := by
  intro g other
  rw [installed, bufOf_setBuf_other other]
  cases r <;> rfl

end Install

theorem handleValue_eq_getD (x : Option Handle) : handleValue x = x.getD 0 := by cases x <;> rfl

theorem installBuf_of_canIssue {s : State} {r : Ring} (can : CanIssue (ringClass r) s) (i : Idx) (h : Handle) :
    exec (.installBuf r i h) s = andThen (installSlot r i.toNat (handleArg h) s)
      (fun t => .next (t.respond codeOk ((s.slotAt r i.toNat).getD 0))) := by
  rw [← handleValue_eq_getD]
  exact admission_of_canIssue can

/-- Settles O21: behind its tests the operation empties the slot, or fills it with a live buffer, or with a pool buffer
where memory has a place for one. -/
theorem installBufSwaps : Obligations.InstallBufSwaps := by
  unfold Obligations.InstallBufSwaps
  intro s r i h can
  rw [installBuf_of_canIssue can]
  refine ⟨fun unreachable => ?tests, fun held within ready => ?swap⟩
  case tests =>
    refine refuses_andThen (installSlot_refuses (fun ⟨held, ready, within⟩ => ?_) _)
    rcases unreachable with away | outOfRange | unready
    · exact away held
    · omega
    · simp [unready] at ready
  case swap =>
    have reach : SlotReachable r i.toNat s := ⟨held, ready, within⟩
    have arg (named : h ≠ 0) : handleArg h = some h := if_neg named
    refine ⟨fun named elsewhere => ?elsewhere, fun unnamed => ?emptied, fun named only pool full => ?noRoom,
      fun named only room => ?filled⟩
    case elsewhere =>
      rw [arg named, installSlot_some reach, if_pos elsewhere]
      exact ⟨_, rfl⟩
    case emptied =>
      rw [show handleArg h = none from if_pos unnamed, installSlot_none reach]
      rfl
    case noRoom =>
      rw [arg named]
      exact refuses_andThen (installSlot_noRoom reach pool (pooledBuffer_eq_none.mpr full))
    case filled =>
      rw [arg named]
      cases place : s.bufOf h with
      | some b =>
        rw [installSlot_live reach only place]
        refine ⟨_, rfl, congrArg (State.respond codeOk _) (installed_frame h b r i.toNat s s.draws),
          holderOf_of_bufOf bufOf_installed_self, otherBuffersSame_installed h b r _ s s.draws, fun c e => ?_, nofun⟩
        cases e
        exact ⟨bufOf_installed_self, installed_draws h b r _ s⟩
      | none =>
        obtain ⟨a, fits⟩ := room.resolve_left (· place)
        obtain ⟨b, object⟩ : ∃ b, pooledBuffer h s = some b :=
          Option.ne_none_iff_exists'.mp fun full => Bool.eq_false_iff.mp (pooledBuffer_eq_none.mp full a) fits
        rw [installSlot_pool reach only place object]
        exact ⟨_, rfl, congrArg (State.respond codeOk _) (installed_frame h b r i.toNat s _),
          holderOf_of_bufOf bufOf_installed_self, otherBuffersSame_installed h b r _ s _, nofun,
          fun _ => ⟨_, bufOf_installed_self, (admissible_iff (b := b)).mp (pooledBuffer_admissible object)⟩⟩

/-! ALLOC (R186). -/

section Alloc

variable {x : List Region} {n : Idx} {g : Grant} {s : State}

theorem grantOk_iff :
    grantOk x g s = true ↔ g.handle ≠ 0 ∧ s.bufOf g.handle = none ∧
      placeable s.cfg (runAt g.addr s.cfg.rxBufBytes) (x ++ liveRegions s) = true := by
  simp only [grantOk, areaPlaceable, Bool.and_eq_true, bne_iff_ne, Option.isNone_iff_eq_none, ne_eq, and_assoc]

/-- The state after the allocator gave `g` (R186). -/
def granted (n : Idx) (g : Grant) (s : State) : State :=
  (s.setBuf g.handle (freshBuffer g s.issuer s)).emit (.alloc n (some g.handle))

theorem bufOf_granted_self (n : Idx) (g : Grant) (s : State) :
    (granted n g s).bufOf g.handle = some (freshBuffer g s.issuer s) :=
  bufOf_setBuf_self g.handle _ s

theorem otherBuffersSame_granted (n : Idx) (g : Grant) (s : State) : OtherBuffersSame g.handle s (granted n g s) :=
  fun _ other => bufOf_setBuf_other other _ s

theorem nextProposal_cons {a : Option Grant} {rest : List (Option Grant)} (input : s.allocs = a :: rest) :
    s.nextProposal = { s with allocs := rest } := by
  rw [State.nextProposal, input]

theorem nextProposal_nil (input : s.allocs = []) : s.nextProposal = { s with draws := s.draws + 1 } := by
  rw [State.nextProposal, input]

theorem badGrant_some {rest : List (Option Grant)} (input : s.allocs = some g :: rest) :
    badGrant x s = !grantOk x g s := by
  rw [badGrant, input]

theorem allocThen_answer {k : Option Handle → State → Result} (good : badGrant x s = false)
    (answer : allocAnswer x s = some g) : allocThen x n s k = k (some g.handle) (granted n g s.nextProposal) := by
  simp [allocThen, good, allocHandle, answer, allocate, granted, freshBuffer]

theorem allocThen_failure {k : Option Handle → State → Result} (good : badGrant x s = false)
    (answer : allocAnswer x s = none) : allocThen x n s k = k none (s.nextProposal.emit (.alloc n none)) := by
  simp [allocThen, good, allocHandle, answer, allocate]

/-- An input grant that R186 admits is given. -/
theorem allocThen_grant {k : Option Handle → State → Result} {rest : List (Option Grant)}
    (input : s.allocs = some g :: rest) (ok : grantOk x g s = true) :
    allocThen x n s k = k (some g.handle) (granted n g { s with allocs := rest }) := by
  have answer : allocAnswer x s = some g := by simp [allocAnswer, proposal, input, ok]
  rw [allocThen_answer (by rw [badGrant_some input, ok]; rfl) answer, nextProposal_cons input]

/-- An input failure is answered. -/
theorem allocThen_noGrant {k : Option Handle → State → Result} {rest : List (Option Grant)}
    (input : s.allocs = none :: rest) :
    allocThen x n s k = k none (({ s with allocs := rest } : State).emit (.alloc n none)) := by
  rw [allocThen_failure (by simp [badGrant, input]) (by simp [allocAnswer, proposal, input]), nextProposal_cons input]

end Alloc

theorem alloc_of_canIssue {s : State} (can : CanIssue .host s) (n : Idx) :
    exec (.alloc n) s = allocThen [] n s (fun a t => .next (t.respondAlloc a)) := admission_of_canIssue can

/-- Settles O22: by the allocator's next answer, an input grant, an input failure, or its own. -/
theorem allocAnswers : Obligations.AllocAnswers := by
  unfold Obligations.AllocAnswers
  intro s n can
  rw [alloc_of_canIssue can]
  refine ⟨fun g rest input => ?grant, fun rest input => ?failure, fun input => ?own⟩
  case grant =>
    split
    next admitted =>
      rw [allocThen_grant input (grantOk_iff.mpr admitted)]
      exact ⟨_, rfl, rfl, bufOf_granted_self n g _, otherBuffersSame_granted n g _⟩
    next bad =>
      have refused : badGrant [] s = true := by simpa [badGrant_some input] using mt grantOk_iff.mp bad
      exact refuses_of_guard refused
  case failure => rw [allocThen_noGrant input]; rfl
  case own =>
    have good : badGrant [] s = false := by rw [badGrant, input]
    cases answer : allocAnswer [] s with
    | none =>
      rw [allocThen_failure good answer, nextProposal_nil input]
      exact ⟨_, rfl, .inl rfl⟩
    | some g =>
      obtain ⟨-, named, pool, fits⟩ := allocAnswer_eq_some answer
      rw [allocThen_answer good answer, nextProposal_nil input]
      exact ⟨_, rfl, .inr ⟨g, named, pool, fits, rfl, bufOf_granted_self n g _, otherBuffersSame_granted n g _⟩⟩

/-! FREE, APPEND and DELIVER (R187 to R189). -/

section Ports

variable {c : AgentClass} {h : Handle} {s : State}

theorem port_refuses_none (unnamed : h = 0) (x : Result) : Refuses (admission c s (whenHandle h x)) :=
  refuses_port (bne_eq_false_iff_eq.mpr unnamed)

theorem port_of_canIssue (can : CanIssue c s) (named : h ≠ 0) (x : Result) : admission c s (whenHandle h x) = x := by
  rw [admission_of_canIssue can, whenHandle, if_neg named]

theorem port_next {t : State} {x : Result} (can : CanIssue c s) (named : h ≠ 0) (e : x = .next t) :
    admission c s (whenHandle h (andThen x done)) = .next (t.respond codeOk 0) := by
  rw [port_of_canIssue can named, e, andThen_next, done]

theorem port_fault {f : Fault} {x : Result} (can : CanIssue c s) (named : h ≠ 0) (e : x = .fault f) :
    admission c s (whenHandle h (andThen x done)) = .fault f := by
  rw [port_of_canIssue can named, e, andThen_fault]

theorem freeBuf_pool (pool : s.bufOf h = none) : freeBuf h s = .fault .poolBuffer := by rw [freeBuf, pool]

theorem deliverBuf_pool (pool : s.bufOf h = none) : deliverBuf h s = .fault .poolBuffer := by rw [deliverBuf, pool]

theorem appendBuf_pool {n : Nat} (fits : n ≤ s.cfg.rxBufBytes) (pool : s.bufOf h = none) :
    appendBuf h n s = .fault .poolBuffer := by
  rw [appendBuf, if_neg (Nat.not_lt.mpr fits), pool]

theorem appendBuf_refuses {n : Nat} (long : s.cfg.rxBufBytes < n) : Refuses (appendBuf h n s) := refuses_of_guard long

end Ports

/-- Settles O23: FREE drops a live buffer from the list of the live ones. -/
theorem freeReturnsToPool : Obligations.FreeReturnsToPool := by
  unfold Obligations.FreeReturnsToPool
  refine fun s h can => ⟨fun unnamed => port_refuses_none unnamed _,
    fun named pool => port_fault can named (freeBuf_pool pool), fun b named live => ?_⟩
  have freed := freeBuf_eq_next.mpr ⟨⟨b, live⟩, rfl⟩
  exact ⟨_, port_next can named freed, rfl, holderOf_of_pool (bufOf_dropBuf_self h s),
    fun g other => bufOf_dropBuf_other other s⟩

/-- Settles O24: a live buffer is listed anew, with the length APPEND gives it or with the holder DELIVER gives it. -/
theorem appendAndDeliver : Obligations.AppendAndDeliver := by
  unfold Obligations.AppendAndDeliver
  refine fun s h len can => ⟨fun unnamed => ⟨port_refuses_none unnamed _, port_refuses_none unnamed _⟩,
    fun named long => admission_refuses (refuses_guard fun _ => refuses_andThen (appendBuf_refuses long)),
    fun named fits pool => ⟨_, port_fault can named (appendBuf_pool fits pool)⟩,
    fun named pool => ⟨_, port_fault can named (deliverBuf_pool pool)⟩, fun b named fits live => ?append,
    fun b named live => ?deliver⟩
  case append =>
    have appended := appendBuf_eq_next.mpr ⟨fits, b, live, rfl⟩
    exact ⟨_, port_next can named appended, rfl, bufOf_setBuf_self h _ s, fun g other => bufOf_setBuf_other other _ s⟩
  case deliver =>
    have delivered := deliverBuf_eq_next.mpr ⟨b, live, rfl⟩
    exact ⟨_, port_next can named delivered, rfl, bufOf_setBuf_self h _ s, fun g other => bufOf_setBuf_other other _ s⟩

end Sys2Proof.Machine
end

section
/-! PROOFS. Construction of the rings (R191, R192, R303; spec file 41_ring_primitives.md): a ring's descriptors are
written one after another, each leaving the bytes of the others; the receive ring's slots take the allocator's grants. -/

namespace Sys2Proof.Machine

open Sys2Proof

/-! Bytes of a run of memory after a store within it. -/

theorem Memory.readBytes_add (m : List Host.Cell) (a : Addr) (k n : Nat) :
    Memory.readBytes m a (k + n) = Memory.readBytes m a k ++ Memory.readBytes m (a + BitVec.ofNat 64 k) n := by
  induction k generalizing a with
  | zero => simp [Memory.readBytes]
  | succ k ih =>
    have later : a + 1 + BitVec.ofNat 64 k = a + BitVec.ofNat 64 (k + 1) := by
      rw [Nat.add_comm k 1]; exact add_ofNat_add a 1 k
    rw [Nat.add_right_comm, Memory.readBytes, Memory.readBytes, ih, later, List.cons_append]

/-- A run of bytes that no store touches reads as before. -/
theorem Memory.readBytes_writeBytes_apart (m : List Host.Cell) {a b : Addr} {bs : List Byte} {n : Nat}
    (apart : ∀ j < n, ∀ d < bs.length, a + BitVec.ofNat 64 j ≠ b + BitVec.ofNat 64 d) :
    Memory.readBytes (Memory.writeBytes m b bs) a n = Memory.readBytes m a n :=
  Memory.readBytes_congr fun j hj => Memory.read_writeBytes_other m b _ bs (apart j hj)

/-- A string stored from byte `k` of a run on replaces its own bytes of the run. -/
theorem Memory.readBytes_writeBytes_within (m : List Host.Cell) (a : Addr) (bs : List Byte) (k l : Nat)
    (fits : k + bs.length + l ≤ 2 ^ 64) :
    Memory.readBytes (Memory.writeBytes m (a + BitVec.ofNat 64 k) bs) a (k + bs.length + l) =
      Memory.readBytes m a k ++ bs ++ Memory.readBytes m (a + BitVec.ofNat 64 (k + bs.length)) l := by
  rw [Memory.readBytes_add, Memory.readBytes_add, Memory.readBytes_writeBytes _ _ _ (by omega),
    Memory.readBytes_writeBytes_apart, Memory.readBytes_writeBytes_apart]
  · intro j hj d hd same
    rw [add_ofNat_add, add_ofNat_add] at same
    have := add_ofNat_injective (by omega) (by omega) same
    omega
  · intro j hj d hd same
    rw [add_ofNat_add] at same
    have := add_ofNat_injective (by omega) (by omega) same
    omega

theorem leNat_append (xs ys : List Byte) : leNat (xs ++ ys) = leNat xs + 256 ^ xs.length * leNat ys := by
  induction xs with
  | nil => simp [leNat]
  | cons x xs ih => simp only [List.cons_append, leNat, ih, List.length_cons, Nat.pow_succ]; ring

/-! What a store leaves outside a run of memory. -/

/-- From `s` to `t` no byte outside the `n` bytes from `a` on changes. -/
def SameOutside (a : Addr) (n : Nat) (s t : State) : Prop := ∀ c, outside a n c → t.byteAt c = s.byteAt c

theorem SameOutside.trans {a : Addr} {n : Nat} {s u t : State} (h : SameOutside a n s u) (k : SameOutside a n u t) :
    SameOutside a n s t := fun c out => (k c out).trans (h c out)

/-- A run within another one. -/
theorem SameOutside.within {a : Addr} {k m n : Nat} {s t : State} (h : SameOutside (a + BitVec.ofNat 64 k) m s t)
    (le : k + m ≤ n) : SameOutside a n s t :=
  fun c out => h c fun d hd => by rw [add_ofNat_add]; exact out (k + d) (by omega)

theorem SameOutside.store {a : Addr} {bs : List Byte} (s : State) {n : Nat} (k : Nat) (le : k + bs.length ≤ n) :
    SameOutside a n s (s.storeBytes (a + BitVec.ofNat 64 k) bs) :=
  SameOutside.within (fun _ => byteAt_storeBytes_outside s) le

/-! Descriptors written one after another (R76). -/

/-- From `s` to `t` the descriptors from slot `i` on take the images `vs`, and no other byte and no register changes. -/
structure DescsWritten (r : Ring) (i : Nat) (vs : List (BitVec 128)) (s t : State) : Prop where
  regs : t.regs = s.regs
  image : ∀ j v, vs[j]? = some v → descImage r (i + j) t = v
  others : SameOutside (descAddr r i 0 s) (16 * vs.length) s t

theorem DescsWritten.nil (r : Ring) (i : Nat) (s : State) : DescsWritten r i [] s s := ⟨rfl, nofun, fun _ _ => rfl⟩

/-- A descriptor's image is not changed by writes to the slots after it. -/
theorem DescsWritten.image_before {r : Ring} {i : Nat} {vs : List (BitVec 128)} {s t : State}
    (h : DescsWritten r (i + 1) vs s t) (fits : 16 * (i + 1 + vs.length) ≤ 2 ^ 64) :
    descImage r i t = descImage r i s := by
  have bytes : Memory.readBytes t.mem (descAddr r i 0 s) 16 = Memory.readBytes s.mem (descAddr r i 0 s) 16 := by
    refine Memory.readBytes_congr fun o ho => h.others _ fun d hd same => ?_
    rw [descAddr_add, descAddr_add] at same
    have := add_ofNat_injective (by simp only [Config.descBytes]; omega) (by simp only [Config.descBytes]; omega) same
    simp only [Config.descBytes] at this
    omega
  rw [descImage, descImage, State.load, State.load, descAddr_congr h.regs]
  exact congrArg (fun l => BitVec.ofNat 128 (leNat l)) bytes

theorem DescsWritten.cons {r : Ring} {i : Nat} {v : BitVec 128} {vs : List (BitVec 128)} {s u t : State}
    (first : DescsWritten r i [v] s u) (later : DescsWritten r (i + 1) vs u t)
    (fits : 16 * (i + 1 + vs.length) ≤ 2 ^ 64) : DescsWritten r i (v :: vs) s t where
  regs := later.regs.trans first.regs
  image := by
    intro j w hw
    cases j with
    | zero => exact (later.image_before fits).trans (first.image 0 w hw)
    | succ j => rw [← Nat.add_assoc, Nat.add_right_comm]; exact later.image j w hw
  others := by
    have next : descAddr r (i + 1) 0 u = descAddr r i 0 s + BitVec.ofNat 64 16 := by
      rw [descAddr_congr first.regs, descAddr_add]
      rfl
    have before : SameOutside (descAddr r i 0 s) (16 * (vs.length + 1)) s u := fun c out =>
      first.others c fun d hd => out d (by simp only [List.length_singleton] at hd; omega)
    exact before.trans (SameOutside.within (next ▸ later.others) (by omega))

/-! One descriptor (R105, R108). -/

/-- From `s` to `t` nothing of memory changes but bytes of one descriptor, and no register changes. -/
structure OnlyDesc (r : Ring) (i : Nat) (s t : State) : Prop where
  regs : t.regs = s.regs
  others : SameOutside (descAddr r i 0 s) 16 s t

theorem OnlyDesc.trans {r : Ring} {i : Nat} {s u t : State} (h : OnlyDesc r i s u) (k : OnlyDesc r i u t) :
    OnlyDesc r i s t :=
  ⟨k.regs.trans h.regs, h.others.trans (descAddr_congr h.regs r i 0 ▸ k.others)⟩

theorem descAddr_eq_add (r : Ring) (i off : Nat) (s : State) :
    descAddr r i off s = descAddr r i 0 s + BitVec.ofNat 64 off := by rw [descAddr_add, Nat.zero_add]

theorem onlyDesc_storeBytes (r : Ring) (i off : Nat) (bs : List Byte) (fits : off + bs.length ≤ 16) (s : State) :
    OnlyDesc r i s (s.storeBytes (descAddr r i off s) bs) :=
  ⟨rfl, descAddr_eq_add r i off s ▸ .store s off fits⟩

/-- The sixteen bytes of a descriptor, lowest address first. -/
def descString (r : Ring) (i : Nat) (s : State) : List Byte := Memory.readBytes s.mem (descAddr r i 0 s) 16

theorem length_descString (r : Ring) (i : Nat) (s : State) : (descString r i s).length = 16 :=
  Memory.length_readBytes _ _ _

/-- A field stored in a descriptor replaces its own bytes. -/
theorem descString_storeBytes (r : Ring) (i off : Nat) (bs : List Byte) (l : Nat) (size : off + bs.length + l = 16)
    (s : State) :
    descString r i (s.storeBytes (descAddr r i off s) bs) =
      (descString r i s).take off ++ bs ++ (descString r i s).drop (off + bs.length) := by
  rw [descString, descString, descAddr_congr (storeBytes_regs _ bs s), storeBytes_mem, descAddr_eq_add r i off, ← size,
    Memory.readBytes_writeBytes_within _ _ _ _ _ (by omega)]
  have head : (Memory.readBytes s.mem (descAddr r i 0 s) (off + bs.length + l)).take off =
      Memory.readBytes s.mem (descAddr r i 0 s) off := by
    rw [Nat.add_assoc, Memory.readBytes_add, List.take_left' (Memory.length_readBytes _ _ _)]
  rw [head, Memory.readBytes_add _ _ (off + bs.length), List.drop_left' (Memory.length_readBytes _ _ _)]

theorem onlyDesc_clearDesc (r : Ring) (i : Nat) (s : State) : OnlyDesc r i s (clearDesc r i s) :=
  onlyDesc_storeBytes r i 0 (leBytes 16 0) (by rw [length_leBytes]) s

theorem descString_clearDesc (r : Ring) (i : Nat) (s : State) : descString r i (clearDesc r i s) = leBytes 16 0 := by
  have stored := descString_storeBytes r i 0 (leBytes 16 0) 0 (by rw [length_leBytes]) s
  rwa [length_leBytes, List.take_zero, List.nil_append, List.drop_of_length_le (length_descString r i s).le,
    List.append_nil] at stored

theorem onlyDesc_setDescStatus (r : Ring) (i : Nat) (v : Byte) (s : State) : OnlyDesc r i s (setDescStatus r i v s) :=
  onlyDesc_storeBytes r i offStatus [v] (by simp [offStatus]) s

theorem descString_setDescStatus (r : Ring) (i : Nat) (v : Byte) (s : State) :
    descString r i (setDescStatus r i v s) = (descString r i s).take 12 ++ [v] ++ (descString r i s).drop 13 :=
  descString_storeBytes r i offStatus [v] 3 rfl s

theorem onlyDesc_setDescPayload (r : Ring) (i : Nat) (a : Addr) (s : State) :
    OnlyDesc r i s (setDescPayload r i a s) :=
  onlyDesc_storeBytes r i offAddr (leBytes 8 a.toNat) (by simp [offAddr, length_leBytes]) s

theorem descString_setDescPayload (r : Ring) (i : Nat) (a : Addr) (s : State) :
    descString r i (setDescPayload r i a s) = leBytes 8 a.toNat ++ (descString r i s).drop 8 := by
  have stored := descString_storeBytes r i offAddr (leBytes 8 a.toNat) 8 (by simp [offAddr, length_leBytes]) s
  rwa [length_leBytes] at stored

theorem clearDesc_eq_mem (r : Ring) (i : Nat) (s : State) :
    clearDesc r i s = { s with mem := Memory.writeBytes s.mem (descAddr r i 0 s) (leBytes 16 0) } := rfl

theorem setDescPayload_eq_mem (r : Ring) (i : Nat) (a : Addr) (s : State) :
    setDescPayload r i a s = { s with mem := Memory.writeBytes s.mem (descAddr r i offAddr s) (leBytes 8 a.toNat) } := rfl

theorem setDescStatus_eq_mem (r : Ring) (i : Nat) (v : Byte) (s : State) :
    setDescStatus r i v s = { s with mem := Memory.writeBytes s.mem (descAddr r i offStatus s) [v] } := rfl

theorem DescsWritten.single {r : Ring} {i : Nat} {l : List Byte} {v : BitVec 128} {s t : State} (only : OnlyDesc r i s t)
    (bytes : descString r i t = l) (value : BitVec.ofNat 128 (leNat l) = v) : DescsWritten r i [v] s t where
  regs := only.regs
  image j w hw := by
    obtain ⟨rfl, rfl⟩ : j = 0 ∧ v = w := by cases j <;> simp_all
    rw [← value, ← bytes]
    rfl
  others := only.others

/-! The transmit ring (R191). -/

/-- Slot `i` cleared, with Done set (R191). -/
theorem descsWritten_clearTxd (i : Nat) (s : State) :
    DescsWritten .tx i [BitVec.ofNat 128 (2 ^ 96)] s (setDescStatus .tx i 0x01 (clearDesc .tx i s)) := by
  have bytes := descString_setDescStatus .tx i 0x01 (clearDesc .tx i s)
  rw [descString_clearDesc] at bytes
  exact .single ((onlyDesc_clearDesc .tx i s).trans (onlyDesc_setDescStatus .tx i 0x01 _)) bytes (by decide)

theorem descsWritten_clearTxds (k i : Nat) (fits : 16 * (i + k) ≤ 2 ^ 64) (s : State) :
    DescsWritten .tx i (List.replicate k (BitVec.ofNat 128 (2 ^ 96))) s (clearTxds k i s) := by
  induction k generalizing i s with
  | zero => exact .nil .tx i s
  | succ k ih =>
    rw [List.replicate_succ]
    exact (descsWritten_clearTxd i s).cons (ih (i + 1) (by omega) _) (by rw [List.length_replicate]; omega)

theorem clearTxds_eq_mem (k i : Nat) (s : State) : ∃ m, clearTxds k i s = { s with mem := m } := by
  induction k generalizing i s with
  | zero => exact ⟨s.mem, rfl⟩
  | succ k ih =>
    obtain ⟨m, later⟩ := ih (i + 1) (setDescStatus .tx i 0x01 (clearDesc .tx i s))
    rw [setDescStatus_eq_mem, clearDesc_eq_mem] at later
    exact ⟨m, later⟩

/-! What a construction tests (R303, R305). -/

section Tests

variable {ready : Bool} {base : Addr} {n : Nat} {s : State} {x : Result}

theorem ringPlaceable_iff : ringPlaceable base n s = true ↔
    base.toNat % 16 = 0 ∧ placeable s.cfg (runAt base (16 * n)) (liveRegions s) = true := by
  rw [ringPlaceable, Bool.and_eq_true, beq_iff_eq]
  rfl

theorem malformed_iff : malformed n = true ↔ n = 0 ∨ 65528 < n ∨ (16 * n) % 128 ≠ 0 := by
  simp only [malformed, Bool.or_eq_true, beq_iff_eq, bne_iff_ne, decide_eq_true_iff, or_assoc]
  rfl

/-- A ring that is constructed, or that cannot be placed, is refused before its size is looked at. -/
theorem construction_refuses
    (unfit : ready = true ∨ base.toNat % 16 ≠ 0 ∨ placeable s.cfg (runAt base (16 * n)) (liveRegions s) = false) :
    Refuses (if ready then .refused .ringConstructed
      else if !ringPlaceable base n s then .refused .ringPlacement else x) := by
  refine refuses_guard fun unready => refuses_of_guard ?_
  rw [Bool.not_eq_true', ← Bool.not_eq_true, ringPlaceable_iff]
  rintro ⟨aligned, placed⟩
  rcases unfit with constructed | misaligned | unplaced
  · exact unready constructed
  · exact misaligned aligned
  · simp [placed] at unplaced

theorem construction_placed (unready : ready = false) (aligned : base.toNat % 16 = 0)
    (placed : placeable s.cfg (runAt base (16 * n)) (liveRegions s) = true) :
    (if ready then .refused .ringConstructed
      else if !ringPlaceable base n s then .refused .ringPlacement else x) = x := by
  simp [unready, ringPlaceable_iff.mpr ⟨aligned, placed⟩]

end Tests

/-- Settles O25: the tests of the place come first, then the test of the size. -/
theorem constructionRefusedOrMalformed : Obligations.ConstructionRefusedOrMalformed := by
  unfold Obligations.ConstructionRefusedOrMalformed
  refine fun s n can => ⟨fun unfit => admission_refuses (construction_refuses unfit),
    fun unfit => admission_refuses (construction_refuses unfit), fun ill => ⟨fun unready aligned placed => ?_,
    fun unready aligned placed => ?_⟩⟩
  all_goals
    refine (admission_of_canIssue can).trans ((construction_placed unready aligned placed).trans ?_)
    rw [if_pos (malformed_iff.mpr ill)]
    rfl

theorem malformed_of_size {n : Nat} (pos : 0 < n) (top : n ≤ 65528) (whole : n % 8 = 0) : malformed n = false :=
  malformed_eq_false.mpr ⟨by omega, top, whole⟩

theorem ringBase_txGeometry (n : Nat) (s : State) : ringBase .tx (txGeometry n s) = s.cfg.txBase :=
  BitVec.extractLsb'_append_extractLsb' (x := s.cfg.txBase) (w := 32) (len := 32)

theorem descAddr_zero {r : Ring} {s : State} {base : Addr} (h : ringBase r s = base) : descAddr r 0 0 s = base := by
  rw [descAddr, h]
  exact BitVec.add_zero base

/-- The state `u`, its descriptors written, with the ring ready (R191). -/
def txFinished (n : Nat) (u : State) : State :=
  { u with
    regs := { u.regs with tdh := 0, tdt := 0 }
    txBuf := List.replicate n none
    txPending := 0, txInflight := none, txReady := true }

theorem buildTx_eq (n : Nat) (s : State) : buildTx n s = txFinished n (clearTxds n 0 (txGeometry n s)) := rfl

/-- Settles O26: the registers are set, every descriptor is cleared with Done set, and the ring is ready. -/
theorem transmitRingConstructed : Obligations.TransmitRingConstructed := by
  unfold Obligations.TransmitRingConstructed
  intro s n can unready pos top whole aligned placed
  have written := descsWritten_clearTxds n.toNat 0 (by omega) (txGeometry n.toNat s)
  obtain ⟨m, cleared⟩ := clearTxds_eq_mem n.toNat 0 (txGeometry n.toNat s)
  have run : exec (.ringInitTx n) s = done (buildTx n.toNat s) :=
    (admission_of_canIssue can).trans ((construction_placed unready aligned placed).trans
      (if_neg (Bool.not_eq_true _ ▸ malformed_of_size pos top whole)))
  rw [buildTx_eq, cleared] at run
  rw [cleared] at written
  refine ⟨_, run, rfl, fun i hi => ?image, fun a out => ?others⟩
  case image =>
    have image := written.image i _ (List.getElem?_replicate_of_lt hi)
    rw [Nat.zero_add] at image
    exact image
  case others =>
    refine written.others a ?_
    rw [descAddr_zero (ringBase_txGeometry _ s), List.length_replicate]
    exact out

/-! Grants the allocator gives one after another (R75, R186). -/

theorem placeable_of_subset {p : Config.Params} {a : Region} {l l' : List Region} (sub : l ⊆ l')
    (h : placeable p a l' = true) : placeable p a l = true := by
  obtain ⟨memory, apart⟩ := placeable_iff.mp h
  exact placeable_iff.mpr ⟨memory, fun b hb => apart b (sub hb)⟩

theorem grantsOk_cons {p : Config.Params} {live : List (Nat × Buffer)} {taken : List Region} {g : Grant}
    {gs : List Grant} :
    grantsOk p live taken (g :: gs) = true ↔
      g.handle ≠ 0 ∧ Assoc.lookup g.handle.toNat live = none ∧ (∀ f ∈ gs, f.handle ≠ g.handle) ∧
        placeable p (runAt g.addr p.rxBufBytes) taken = true ∧
        grantsOk p live (runAt g.addr p.rxBufBytes :: taken) gs = true := by
  simp only [grantsOk, Bool.and_eq_true, bne_iff_ne, Option.isNone_iff_eq_none, List.all_eq_true, and_assoc]

/-- Another live buffer does not matter to grants of other handles. -/
theorem grantsOk_insert {p : Config.Params} {live : List (Nat × Buffer)} {taken : List Region} {gs : List Grant}
    {h : Handle} (b : Buffer) (other : ∀ f ∈ gs, f.handle ≠ h) (ok : grantsOk p live taken gs = true) :
    grantsOk p (Assoc.insert h.toNat b live) taken gs = true := by
  induction gs generalizing taken with
  | nil => rfl
  | cons g gs ih =>
    obtain ⟨named, pool, distinct, fits, later⟩ := grantsOk_cons.mp ok
    obtain ⟨hg, others⟩ := List.forall_mem_cons.mp other
    have key : g.handle.toNat ≠ h.toNat := fun e => hg (BitVec.eq_of_toNat_eq e)
    exact grantsOk_cons.mpr ⟨named, by rwa [Assoc.lookup_insert_other key], distinct, fits, ih others later⟩

theorem Assoc.mem_of_mem_insert {α : Type} {e : Nat × α} {k : Nat} {v : α} {l : List (Nat × α)}
    (h : e ∈ Assoc.insert k v l) : e = (k, v) ∨ e ∈ l := by
  induction l with
  | nil => exact .inl (List.mem_singleton.mp h)
  | cons f l ih =>
    obtain ⟨j, u⟩ := f
    simp only [Assoc.insert] at h
    split at h
    · exact List.mem_cons.mp h
    · split at h
      · exact (List.mem_cons.mp h).imp_right (List.mem_cons_of_mem _)
      · rcases List.mem_cons.mp h with rfl | h
        · exact .inr List.mem_cons_self
        · exact (ih h).imp_right (List.mem_cons_of_mem _)

/-- A buffer made live adds its area to the regions in use. -/
theorem liveRegions_setBuf_subset (h : Handle) (b : Buffer) (s : State) :
    liveRegions (s.setBuf h b) ⊆ runAt b.addr b.area :: liveRegions s := by
  intro a ha
  rcases List.mem_append.mp ha with rings | areas
  · exact List.mem_cons_of_mem _ (List.mem_append_left _ rings)
  · obtain ⟨e, he, rfl⟩ := List.mem_map.mp areas
    rcases Assoc.mem_of_mem_insert he with rfl | he
    · exact List.mem_cons_self
    · exact List.mem_cons_of_mem _ (List.mem_append_right _ (List.mem_map_of_mem he))

/-! A receive slot armed (R192). -/

/-- The buffer of a grant, held by its receive slot (R192). -/
def slotBuffer (g : Grant) (i : Nat) (s : State) : Buffer :=
  { addr := g.addr, len := 0, area := s.cfg.rxBufBytes, holder := .ring .rx i }

/-- The state, but for memory, after slot `i` took the next grant (R192). -/
def slotFilled (i : Nat) (g : Grant) (s : State) : State :=
  { s with
    rxBuf := s.rxBuf ++ [some g.handle]
    bufs := Assoc.insert g.handle.toNat (slotBuffer g i s) s.bufs
    allocs := s.allocs.tail
    out := s.out ++ [.alloc s.cfg.headroom (some g.handle)] }

/-- The writes to its descriptor that arm a slot (R192). -/
def armDesc (i : Nat) (a : Addr) (s : State) : State :=
  setDescStatus .rx i 0x00 (setDescPayload .rx i a (clearDesc .rx i s))

theorem armDesc_eq_mem (i : Nat) (a : Addr) (s : State) : ∃ m, armDesc i a s = { s with mem := m } := by
  rw [armDesc, setDescStatus_eq_mem, setDescPayload_eq_mem, clearDesc_eq_mem]
  exact ⟨_, rfl⟩

theorem payloadAddress_setBuf (h : Handle) (b : Buffer) (s : State) : (s.setBuf h b).payloadAddress h = b.addr := by
  rw [State.payloadAddress, State.bufferAt, bufOf_setBuf_self, Option.getD_some]

/-- Clearing a descriptor does not look at the slots or the buffers. -/
theorem clearDesc_setBuf (i : Nat) (l : List (Option Handle)) (h : Handle) (b : Buffer) (s : State) :
    clearDesc .rx i (({ s with rxBuf := l } : State).setBuf h b) =
      ({ clearDesc .rx i s with rxBuf := l } : State).setBuf h b := by
  have place : descAddr .rx i 0 (({ s with rxBuf := l } : State).setBuf h b) = descAddr .rx i 0 s := descAddr_congr rfl ..
  rw [clearDesc_eq_mem, clearDesc_eq_mem, place]
  simp only [State.setBuf]

theorem armSlot_of_live {h : Handle} {b : Buffer} {s : State} (live : s.bufOf h = some b) (i : Nat) :
    armSlot i h s = armDesc i b.addr
      (({ s with rxBuf := s.rxBuf ++ [some h] } : State).setBuf h { b with holder := .ring .rx i }) := by
  have slots : (clearDesc .rx i s).rxBuf = s.rxBuf := by rw [clearDesc_eq_mem]
  have bufs : (clearDesc .rx i s).bufs = s.bufs := by rw [clearDesc_eq_mem]
  have cleared : ({ clearDesc .rx i s with rxBuf := s.rxBuf ++ [some h] } : State).bufOf h = some b := by
    simpa only [State.bufOf, bufs] using live
  have held := installHolder_of_live cleared .rx i
  rw [armDesc, clearDesc_setBuf, ← held, ← payloadAddress_setBuf h { b with holder := .ring .rx i }, ← held, armSlot,
    slots]

/-- Slot `i` armed with the next grant (R192). -/
def armGrant (i : Nat) (g : Grant) (s : State) : State :=
  armSlot i g.handle (granted s.cfg.headroom g { s with allocs := s.allocs.tail })

theorem armGrant_eq_armDesc (i : Nat) (g : Grant) (s : State) :
    armGrant i g s = armDesc i g.addr (slotFilled i g s) := by
  have live := bufOf_granted_self s.cfg.headroom g { s with allocs := s.allocs.tail }
  have once := Assoc.insert_insert g.handle.toNat (freshBuffer g s.issuer s) (slotBuffer g i s) s.bufs
  rw [armGrant, armSlot_of_live live, slotFilled, ← once]
  rfl

theorem onlyDesc_armDesc (i : Nat) (a : Addr) (s : State) : OnlyDesc .rx i s (armDesc i a s) :=
  ((onlyDesc_clearDesc .rx i s).trans (onlyDesc_setDescPayload .rx i a _)).trans (onlyDesc_setDescStatus .rx i 0x00 _)

theorem descString_armDesc (i : Nat) (a : Addr) (s : State) :
    descString .rx i (armDesc i a s) = leBytes 8 a.toNat ++ leBytes 8 0 := by
  rw [armDesc, descString_setDescStatus, descString_setDescPayload, descString_clearDesc]
  rfl

theorem descsWritten_armDesc (i : Nat) (a : Addr) (s : State) :
    DescsWritten .rx i [a.setWidth 128] s (armDesc i a s) := by
  have low : a.toNat % 256 ^ 8 = a.toNat := Nat.mod_eq_of_lt a.isLt
  have value : leNat (leBytes 8 a.toNat ++ leBytes 8 0) = a.toNat := by
    rw [leNat_append, leNat_leBytes, leNat_leBytes, low, Nat.zero_mod, Nat.mul_zero, Nat.add_zero]
  exact .single (onlyDesc_armDesc i a s) (descString_armDesc i a s) (by rw [value, BitVec.ofNat_toNat])

theorem DescsWritten.of_same {r : Ring} {i : Nat} {vs : List (BitVec 128)} {s u t : State} (h : DescsWritten r i vs u t)
    (mem : u.mem = s.mem) (regs : u.regs = s.regs) : DescsWritten r i vs s t where
  regs := h.regs.trans regs
  image := h.image
  others c out := by
    rw [← descAddr_congr regs] at out
    rw [h.others c out, State.byteAt, mem]
    rfl

theorem descsWritten_armGrant (i : Nat) (g : Grant) (s : State) :
    DescsWritten .rx i [g.addr.setWidth 128] s (armGrant i g s) := by
  rw [armGrant_eq_armDesc]
  exact (descsWritten_armDesc i g.addr (slotFilled i g s)).of_same rfl rfl

theorem armGrant_eq_mem (i : Nat) (g : Grant) (s : State) : ∃ m, armGrant i g s = { slotFilled i g s with mem := m } :=
  armGrant_eq_armDesc i g s ▸ armDesc_eq_mem i g.addr (slotFilled i g s)

theorem bufOf_armGrant_self (i : Nat) (g : Grant) (s : State) :
    (armGrant i g s).bufOf g.handle = some (slotBuffer g i s) := by
  obtain ⟨m, armed⟩ := armGrant_eq_mem i g s
  rw [armed]
  exact Assoc.lookup_insert_self _ _ _

theorem bufOf_armGrant_other {g : Grant} {h : Handle} (other : g.handle ≠ h) (i : Nat) (s : State) :
    (armGrant i g s).bufOf h = s.bufOf h := by
  obtain ⟨m, armed⟩ := armGrant_eq_mem i g s
  rw [armed]
  exact Assoc.lookup_insert_other (fun e => other (BitVec.eq_of_toNat_eq e.symm)) _ _

/-! The receive slots armed one after another (R192). -/

/-- Slots `i`, `i + 1`, ... armed with the grants (R192). -/
def armGrants : Nat → List Grant → State → State
  | _, [], s => s
  | i, g :: gs, s => armGrants (i + 1) gs (armGrant i g s)

theorem armGrants_frame (i : Nat) (gs : List Grant) (s : State) :
    ∃ m l, armGrants i gs s = { s with
      mem := m, bufs := l, rxBuf := s.rxBuf ++ gs.map (fun g : Grant => some g.handle)
      allocs := s.allocs.drop gs.length
      out := s.out ++ gs.map (fun g : Grant => Output.alloc s.cfg.headroom (some g.handle)) } := by
  induction gs generalizing i s with
  | nil => exact ⟨s.mem, s.bufs, by simp [armGrants]⟩
  | cons g gs ih =>
    obtain ⟨m₀, armed⟩ := armGrant_eq_mem i g s
    obtain ⟨m, l, later⟩ := ih (i + 1) { slotFilled i g s with mem := m₀ }
    rw [armGrants, armed, later]
    exact ⟨m, l, by simp [slotFilled]⟩

theorem descsWritten_armGrants (i : Nat) (gs : List Grant) (fits : 16 * (i + gs.length) ≤ 2 ^ 64) (s : State) :
    DescsWritten .rx i (gs.map fun g : Grant => g.addr.setWidth 128) s (armGrants i gs s) := by
  induction gs generalizing i s with
  | nil => exact .nil .rx i s
  | cons g gs ih =>
    rw [List.length_cons] at fits
    exact (descsWritten_armGrant i g s).cons (ih (i + 1) (by omega) _) (by rw [List.length_map]; omega)

theorem bufOf_armGrants_other {gs : List Grant} {h : Handle} (other : ∀ g ∈ gs, g.handle ≠ h) (i : Nat) (s : State) :
    (armGrants i gs s).bufOf h = s.bufOf h := by
  induction gs generalizing i s with
  | nil => rfl
  | cons g gs ih =>
    obtain ⟨hg, others⟩ := List.forall_mem_cons.mp other
    rw [armGrants, ih others, bufOf_armGrant_other hg]

/-- No two of the grants have one handle (R186). -/
theorem grantsOk_distinct {p : Config.Params} {live : List (Nat × Buffer)} {taken : List Region} {gs : List Grant}
    (ok : grantsOk p live taken gs = true) : gs.Pairwise (fun g f => f.handle ≠ g.handle) := by
  induction gs generalizing taken with
  | nil => exact .nil
  | cons g gs ih =>
    obtain ⟨-, -, distinct, -, later⟩ := grantsOk_cons.mp ok
    exact .cons distinct (ih later)

theorem bufOf_armGrants {gs : List Grant} (distinct : gs.Pairwise (fun g f => f.handle ≠ g.handle)) (i : Nat) (s : State)
    {j : Nat} {g : Grant} (hg : gs[j]? = some g) :
    (armGrants i gs s).bufOf g.handle = some (slotBuffer g (i + j) s) := by
  induction gs generalizing i s j with
  | nil => nomatch hg
  | cons f gs ih =>
    obtain ⟨others, distinct⟩ := List.pairwise_cons.mp distinct
    cases j with
    | zero =>
      cases hg
      rw [armGrants, bufOf_armGrants_other others, bufOf_armGrant_self, Nat.add_zero]
    | succ j =>
      obtain ⟨m, armed⟩ := armGrant_eq_mem i f s
      rw [armGrants, ih distinct (i + 1) _ hg, armed, Nat.add_right_comm, Nat.add_assoc]
      rfl

/-- The population loop takes the grants one after another; each is one R186 admits when its turn comes. -/
theorem populateRx_grants {gs : List Grant} {rest : List (Option Grant)} {taken : List Region} {n : Nat} {s : State}
    (input : s.allocs = gs.map some ++ rest) (used : newRing s.cfg.rxBase n :: liveRegions s ⊆ taken)
    (ok : grantsOk s.cfg s.bufs taken gs = true) (k i : Nat) :
    populateRx n (gs.length + k) i s = populateRx n k (i + gs.length) (armGrants i gs s) := by
  induction gs generalizing i s taken with
  | nil => rw [List.length_nil, Nat.zero_add, Nat.add_zero, armGrants]
  | cons g gs ih =>
    obtain ⟨named, pool, distinct, fits, later⟩ := grantsOk_cons.mp ok
    have admitted : grantOk [newRing s.cfg.rxBase n] g s = true :=
      grantOk_iff.mpr ⟨named, pool, placeable_of_subset used fits⟩
    have step : populateRx n (gs.length + k + 1) i s = populateRx n (gs.length + k) (i + 1) (armGrant i g s) := by
      rw [populateRx, allocThen_grant input admitted, armGrant, input]
      rfl
    have index : i + (gs.length + 1) = i + 1 + gs.length := by omega
    rw [List.length_cons, Nat.add_right_comm, step, armGrants, index]
    obtain ⟨m, armed⟩ := armGrant_eq_mem i g s
    rw [armed]
    have inUse : liveRegions { slotFilled i g s with mem := m } ⊆ runAt g.addr s.cfg.rxBufBytes :: liveRegions s :=
      liveRegions_setBuf_subset g.handle (slotBuffer g i s) s
    have next : s.allocs.tail = gs.map some ++ rest := by rw [input]; rfl
    obtain ⟨ring, live⟩ := List.cons_subset.mp used
    exact ih (s := { slotFilled i g s with mem := m }) next
      (List.cons_subset.mpr ⟨List.mem_cons_of_mem _ ring, List.Subset.trans inUse (List.cons_subset_cons _ live)⟩)
      (grantsOk_insert (slotBuffer g i s) distinct later) (i + 1)

theorem ringBase_rxGeometry (n : Nat) (s : State) : ringBase .rx (rxGeometry n s) = s.cfg.rxBase :=
  BitVec.extractLsb'_append_extractLsb' (x := s.cfg.rxBase) (w := 32) (len := 32)

theorem liveRegions_rxGeometry {s : State} (unready : s.rxReady = false) (n : Nat) :
    liveRegions (rxGeometry n s) = liveRegions s := by
  have tx : ringRegion .tx (rxGeometry n s) = ringRegion .tx s := rfl
  have rx : (rxGeometry n s).rxReady = false := unready
  simp only [liveRegions, tx, rx, unready, Bool.false_eq_true, if_false]
  rfl

/-- Settles O27: the population loop arms each slot with its grant, and the ring is then ready. -/
theorem receiveRingConstructed : Obligations.ReceiveRingConstructed := by
  unfold Obligations.ReceiveRingConstructed
  intro s n gs rest can unready pos top whole aligned placed size input ok
  have populated := populateRx_grants (s := rxGeometry n.toNat s) input
    (by rw [liveRegions_rxGeometry unready]; exact List.Subset.refl _) ok 0 0
  rw [Nat.add_zero, size] at populated
  have run : exec (.ringInitRx n) s = done (finishRx n.toNat (armGrants 0 gs (rxGeometry n.toNat s))) :=
    (admission_of_canIssue can).trans ((construction_placed unready aligned placed).trans
      ((if_neg (Bool.not_eq_true _ ▸ malformed_of_size pos top whole)).trans populated))
  have written := descsWritten_armGrants 0 gs (by omega) (rxGeometry n.toNat s)
  have other (h : Handle) (unnamed : ∀ g ∈ gs, g.handle ≠ h) := bufOf_armGrants_other unnamed 0 (rxGeometry n.toNat s)
  have held {j : Nat} {g : Grant} (hg : gs[j]? = some g) :=
    bufOf_armGrants (grantsOk_distinct ok) 0 (rxGeometry n.toNat s) hg
  obtain ⟨m, l, armed⟩ := armGrants_frame 0 gs (rxGeometry n.toNat s)
  have used : (rxGeometry n.toNat s).allocs.drop gs.length = rest := by simp [rxGeometry, input]
  rw [used] at armed
  rw [armed] at run written other held
  refine ⟨_, run, rfl, fun i g hg => ⟨?image, ?buffer⟩, other, fun a out => ?bytes⟩
  case image =>
    have image := written.image i _ (List.getElem?_map .. ▸ congrArg (Option.map _) hg)
    rw [Nat.zero_add] at image
    exact image
  case buffer =>
    have buffer := held hg
    rw [Nat.zero_add] at buffer
    exact buffer
  case bytes =>
    refine written.others a ?_
    rw [descAddr_zero (ringBase_rxGeometry _ s), List.length_map, size]
    exact out

end Sys2Proof.Machine
end

section
/-! PROOFS. TRANSMIT (R200 to R214; spec file 42_transmit_path.md): one rule for each phase, which gives the state the
phase leads to; a whole run is its phases one after another. -/

namespace Sys2Proof.Machine

open Sys2Proof

/-! The bytes of a transmit descriptor that T6 writes (R206). -/

theorem load_store_self (a : Addr) {n : Nat} (short : n ≤ 2 ^ 64) (v : Nat) (s : State) :
    (s.store a n v).load a n = v % 256 ^ n := by
  have stored := Memory.readBytes_writeBytes s.mem a (leBytes n v) (by rwa [length_leBytes])
  rw [length_leBytes] at stored
  rw [State.load, store_mem, stored, leNat_leBytes]

theorem descPayload_setDescPayload (r : Ring) (i : Nat) (a : Addr) (s : State) :
    descPayload r i (setDescPayload r i a s) = a := by
  have whole : (setDescPayload r i a s).load (descAddr r i offAddr s) 8 = a.toNat :=
    (load_store_self _ (by decide) _ s).trans (Nat.mod_eq_of_lt a.isLt)
  rw [descPayload, descAddr_congr (setDescPayload_regs r i a s), whole, BitVec.ofNat_toNat, BitVec.setWidth_eq]

theorem toNat_descLength_setDescLength (r : Ring) (i n : Nat) (s : State) :
    (descLength r i (setDescLength r i n s)).toNat = n % 2 ^ 16 := by
  have low : (setDescLength r i n s).load (descAddr r i offLength s) 2 = n % 2 ^ 16 := load_store_self _ (by decide) n s
  rw [descLength, descAddr_congr (setDescLength_regs r i n s), low, BitVec.toNat_ofNat, Nat.mod_mod]

theorem descPayload_setDescLength (r : Ring) (i n : Nat) (s : State) :
    descPayload r i (setDescLength r i n s) = descPayload r i s := by
  have apart : Memory.readBytes (setDescLength r i n s).mem (descAddr r i offAddr s) 8 =
      Memory.readBytes s.mem (descAddr r i offAddr s) 8 := by
    refine Memory.readBytes_writeBytes_apart s.mem fun j hj d hd same => ?_
    rw [length_leBytes] at hd
    rw [descAddr_eq_add r i offLength, descAddr_eq_add r i offAddr, add_ofNat_add, add_ofNat_add] at same
    have := add_ofNat_injective (by simp only [offAddr]; omega) (by simp only [offLength]; omega) same
    simp only [offAddr, offLength] at this
    omega
  rw [descPayload, descAddr_congr (setDescLength_regs r i n s), State.load, apart]
  rfl

/-- A later byte of a descriptor is none of its first ten, which hold address and length (R105). -/
theorem outside_descAddr {r : Ring} {i off : Nat} {s : State} (later : 10 ≤ off) (within : off < 16) :
    outside (descAddr r i 0 s) 10 (descAddr r i off s) := by
  intro k hk same
  rw [descAddr_eq_add] at same
  have := add_ofNat_injective (by omega) (by omega) same
  omega

/-! What the phases do (R204 to R207). -/

section Work

variable {i : Nat} {h : Handle} {b : Buffer} {s : State}

/-- The slot emptied and the buffer that was in it freed (R204). -/
def vacated (i : Nat) (s : State) : State :=
  { s with
    txBuf := s.txBuf.set i none
    bufs := (s.slotAt .tx i).elim s.bufs fun h => Assoc.erase h.toNat s.bufs
    out := s.out ++ ((s.slotAt .tx i).map Output.free).toList }

theorem freeSlotBuf_eq_vacated (live : ∀ h, s.slotAt .tx i = some h → s.bufOf h ≠ none) :
    freeSlotBuf (s.slotAt .tx i) (s.setSlot .tx i none) = .next (vacated i s) := by
  cases slot : s.slotAt .tx i with
  | none =>
    simp only [freeSlotBuf, vacated, slot, Option.elim, Option.map_none, Option.toList_none, List.append_nil]
    rfl
  | some h =>
    obtain ⟨b, listed⟩ := Option.ne_none_iff_exists'.mp (live h slot)
    refine freeSlotBuf_eq_next.mpr (.inr ⟨h, b, rfl, listed, ?_⟩)
    simp only [vacated, slot]
    rfl

theorem bufOf_vacated_self (slot : s.slotAt .tx i = some h) : (vacated i s).bufOf h = none := by
  simp only [State.bufOf, vacated, slot]
  exact Assoc.lookup_erase_self _ _

theorem bufOf_vacated_other (other : s.slotAt .tx i ≠ some h) : (vacated i s).bufOf h = s.bufOf h := by
  cases slot : s.slotAt .tx i with
  | none => simp only [State.bufOf, vacated, slot, Option.elim]
  | some g =>
    have apart : h ≠ g := fun e => other (e ▸ slot)
    simp only [State.bufOf, vacated, slot]
    exact Assoc.lookup_erase_other (fun e => apart (BitVec.eq_of_toNat_eq e)) _

/-- What stands in slot `i` does not matter to a search that leaves it out. -/
theorem namedBy_set_skip (h : Handle) (x : Option Handle) (l : List (Option Handle)) (i j : Nat) :
    namedBy h (some (j + i)) j (l.set i x) = namedBy h (some (j + i)) j l := by
  induction l generalizing i j with
  | nil => rfl
  | cons y l ih =>
    cases i with
    | zero => simp [namedBy]
    | succ i =>
      rw [List.set_cons_succ, namedBy, namedBy, show j + (i + 1) = j + 1 + i by omega, ih]

theorem inOtherSlot_vacated (h : Handle) (i : Nat) (s : State) :
    inOtherSlot h .tx i (vacated i s) = inOtherSlot h .tx i s := by
  have own := namedBy_set_skip h none s.txBuf i 0
  rw [Nat.zero_add] at own
  exact congrArg (· || namedBy h none 0 s.rxBuf) own

@[simp] theorem bufOf_marked (h : Handle) (i : Nat) (c : Byte) (s : State) :
    (marked .tx i c s).bufOf h = s.bufOf h := rfl

/-- The buffer in its slot, its address and its length in the descriptor (R206). -/
def described (h : Handle) (b : Buffer) (i : Nat) (s : State) : State :=
  setDescLength .tx i b.len (setDescPayload .tx i b.addr (installed h b .tx i s))

@[simp] theorem described_regs (h : Handle) (b : Buffer) (i : Nat) (s : State) :
    (described h b i s).regs = s.regs := rfl

@[simp] theorem described_ops (h : Handle) (b : Buffer) (i : Nat) (s : State) : (described h b i s).ops = s.ops := rfl

@[simp] theorem described_issuer (h : Handle) (b : Buffer) (i : Nat) (s : State) :
    (described h b i s).issuer = s.issuer := rfl

theorem described_frame (h : Handle) (b : Buffer) (i : Nat) (s : State) :
    described h b i s =
      { s with
        mem := (described h b i s).mem, txBuf := s.txBuf.set i (some h), bufs := (described h b i s).bufs } := by
  obtain ⟨m, work⟩ : ∃ m, described h b i s = { installed h b .tx i s with mem := m } := ⟨_, rfl⟩
  rw [work]
  rfl

theorem bufOf_described_self : (described h b i s).bufOf h = some { b with holder := .ring .tx i } :=
  bufOf_installed_self

theorem otherBuffersSame_described (h : Handle) (b : Buffer) (i : Nat) (s : State) :
    OtherBuffersSame h s (described h b i s) := otherBuffersSame_installed h b .tx i s s.draws

theorem descPayload_described : descPayload .tx i (described h b i s) = b.addr :=
  (descPayload_setDescLength .tx i _ _).trans (descPayload_setDescPayload .tx i _ _)

theorem toNat_descLength_described (fits : b.len ≤ 0xFFFF) : (descLength .tx i (described h b i s)).toNat = b.len :=
  (toNat_descLength_setDescLength .tx i _ _).trans (Nat.mod_eq_of_lt (by omega))

theorem sameOutside_described (h : Handle) (b : Buffer) (i : Nat) (s : State) :
    SameOutside (descAddr .tx i 0 s) 10 s (described h b i s) := by
  have address : SameOutside (descAddr .tx i 0 s) 10 s (setDescPayload .tx i b.addr (installed h b .tx i s)) := by
    have stored := SameOutside.store (a := descAddr .tx i 0 s) (bs := leBytes 8 b.addr.toNat) (installed h b .tx i s) 0
      (n := 10) (by rw [length_leBytes]; omega)
    rw [← descAddr_eq_add] at stored
    exact stored
  have length := SameOutside.store (a := descAddr .tx i 0 s) (bs := leBytes 2 b.len)
    (setDescPayload .tx i b.addr (installed h b .tx i s)) 8 (n := 10) (by rw [length_leBytes])
  rw [← descAddr_eq_add] at length
  exact address.trans length

theorem descStatus_described : descStatus .tx i (described h b i s) = descStatus .tx i s := by
  rw [descStatus, descAddr_congr (described_regs h b i s)]
  exact sameOutside_described h b i s _ (outside_descAddr (by decide) (by decide))

theorem txdCmd_described : txdCmd i (described h b i s) = txdCmd i s := by
  rw [txdCmd, descAddr_congr (described_regs h b i s)]
  exact sameOutside_described h b i s _ (outside_descAddr (by decide) (by decide))

/-- The tail one slot further, and one more slot pending (R207). -/
def advanced (i : Nat) (s : State) : State :=
  { s with
    regs := { s.regs with tdt := indexWord (ringNext i (ringSize .tx s)) }
    txPending := s.txPending + 1 }

@[simp] theorem bufOf_advanced (h : Handle) (i : Nat) (s : State) : (advanced i s).bufOf h = s.bufOf h := rfl

@[simp] theorem txdCmd_advanced (i j : Nat) (s : State) : txdCmd i (advanced j s) = txdCmd i s := rfl

@[simp] theorem descStatus_advanced (i j : Nat) (s : State) :
    descStatus .tx i (advanced j s) = descStatus .tx i s := rfl

@[simp] theorem descPayload_advanced (i j : Nat) (s : State) :
    descPayload .tx i (advanced j s) = descPayload .tx i s := rfl

@[simp] theorem descLength_advanced (i j : Nat) (s : State) :
    descLength .tx i (advanced j s) = descLength .tx i s := rfl

/-- The commit of one slot makes one more pending (R143, R207). -/
theorem wrTdt_eq_advanced (ready : s.txReady = true) (held : s.txLock = .held s.issuer) (several : 1 < ringSize .tx s)
    (tail : i = tailIndex .tx s) (within : i < ringSize .tx s) (room : s.txPending < ringSize .tx s) :
    wrTdt (indexWord (ringNext i (ringSize .tx s))) s = .next (advanced i s) := by
  have next : ringNext i (ringSize .tx s) < ringSize .tx s := ringNext_lt (by omega)
  have short : ringNext i (ringSize .tx s) < 2 ^ 16 := next.trans (ringSize_lt .tx s)
  have one :
      ringDist (tailIndex .tx s) (indexField (indexWord (ringNext i (ringSize .tx s)))) (ringSize .tx s) = 1 := by
    rw [indexField_indexWord short, ← tail]
    exact ringDist_add_mod within several
  refine wrTdt_eq_next.mpr (.inr ⟨ready, held, indexOk_indexWord short, ?_, ?_, ?_⟩)
  · rwa [indexField_indexWord short]
  · omega
  · rw [one]
    rfl

/-- The operations in progress and the transmit lock replaced. -/
def State.resync (ops : List (Nat × Op)) (l : Lock) (s : State) : State := { s with ops := ops, txLock := l }

/-! The work of a phase looks at neither. -/

section Resync

variable (ops : List (Nat × Op)) (l : Lock)

theorem setTxdCmd_resync (i : Nat) (v : Byte) (s : State) :
    setTxdCmd i v (s.resync ops l) = (setTxdCmd i v s).resync ops l := rfl

theorem setDescStatus_resync (i : Nat) (v : Byte) (s : State) :
    setDescStatus .tx i v (s.resync ops l) = (setDescStatus .tx i v s).resync ops l := rfl

theorem setDescPayload_resync (i : Nat) (a : Addr) (s : State) :
    setDescPayload .tx i a (s.resync ops l) = (setDescPayload .tx i a s).resync ops l := rfl

theorem setDescLength_resync (i n : Nat) (s : State) :
    setDescLength .tx i n (s.resync ops l) = (setDescLength .tx i n s).resync ops l := rfl

theorem installed_resync (h : Handle) (b : Buffer) (i : Nat) (s : State) :
    installed h b .tx i (s.resync ops l) = (installed h b .tx i s).resync ops l := rfl

theorem vacated_resync (i : Nat) (s : State) : vacated i (s.resync ops l) = (vacated i s).resync ops l := rfl

theorem marked_resync (i : Nat) (v : Byte) (s : State) :
    marked .tx i v (s.resync ops l) = (marked .tx i v s).resync ops l := by
  rw [marked, setTxdCmd_resync, setDescStatus_resync, marked]

theorem described_resync (h : Handle) (b : Buffer) (i : Nat) (s : State) :
    described h b i (s.resync ops l) = (described h b i s).resync ops l := by
  rw [described, installed_resync, setDescPayload_resync, setDescLength_resync, described]

theorem advanced_resync (i : Nat) (s : State) : advanced i (s.resync ops l) = (advanced i s).resync ops l := rfl

end Resync

end Work

/-! The contract about the buffer (R200). -/

/-- The buffer is the issuer's and has a length a descriptor can carry. -/
def Sendable (h : Handle) (s : State) : Prop :=
  s.holderOf h = .caller s.issuer ∧ 1 ≤ s.payloadLength h ∧ s.payloadLength h ≤ 0xFFFF

section Contract

variable {h : Handle} {b : Buffer} {s : State}

theorem payloadLength_of_live (live : s.bufOf h = some b) : s.payloadLength h = b.len := by
  rw [State.payloadLength, State.bufferAt, live, Option.getD_some]

theorem payloadAddress_of_live (live : s.bufOf h = some b) : s.payloadAddress h = b.addr := by
  rw [State.payloadAddress, State.bufferAt, live, Option.getD_some]

theorem sendable_of_live (live : s.bufOf h = some b) (holds : b.holder = .caller s.issuer) (pos : 1 ≤ b.len)
    (fits : b.len ≤ 0xFFFF) : Sendable h s := by
  rw [Sendable, holderOf_of_bufOf live, payloadLength_of_live live]
  exact ⟨holds, pos, fits⟩

theorem whenSendable_of_sendable (ok : Sendable h s) (x : Result) : whenSendable h s x = x := by
  obtain ⟨holds, pos, fits⟩ := ok
  rw [whenSendable, if_neg (not_not.mpr holds), if_neg (by omega)]

theorem whenSendable_refuses (no : ¬ Sendable h s) (x : Result) : Refuses (whenSendable h s x) :=
  refuses_guard fun holds => refuses_of_guard (by
    by_contra fits
    exact no ⟨not_not.mp holds, by omega, by omega⟩)

theorem not_sendable
    (no : s.holderOf h ≠ .caller s.issuer ∨ s.payloadLength h = 0 ∨ 0xFFFF < s.payloadLength h) : ¬ Sendable h s := by
  rintro ⟨holds, pos, fits⟩
  rcases no with away | length
  · exact away holds
  · omega

theorem startTransmit_admittedWhen (can : CanIssue .thread s) (h : Handle) :
    AdmittedWhen (s.txReady = true ∧ h ≠ 0 ∧ Sendable h s) (s.setOp (.transmit (txStartCtx h))) (startTransmit h s) :=
  have contract : AdmittedWhen (Sendable h s) _ (whenSendable h s (.next (s.setOp (.transmit (txStartCtx h))))) :=
    ⟨fun ok => whenSendable_of_sendable ok _, fun no => whenSendable_refuses no _⟩
  .admission can contract.guardNot.requires

end Contract

/-! The phases (R201 to R209). -/

section Phases

variable {s : State} {c : TxCtx} {b : Buffer}

/-- The next phase of a TRANSMIT is the one it stands at. -/
theorem proceed_at {p : TxPhase} (running : s.failed = false) (op : s.opOf s.issuer = some (.transmit c))
    (phase : c.phase = p) : proceed s = txPhase { c with phase := p } s := by
  subst phase
  exact proceed_of_opOf running op

theorem txT1_of_free (free : s.txLock = .free) :
    txT1 c s = .next ((s.setLock .tx (.held s.issuer)).setOp (.transmit { c with phase := .t2 })) :=
  lockThen_of_free (r := .tx) free _ _

theorem txT1_of_held_other {a : Agent} (held : s.txLock = .held a) (other : a ≠ s.issuer) : txT1 c s = .next s :=
  lockThen_of_held_other (r := .tx) held other _ _

theorem txT4_of_live (live : ∀ h, s.slotAt .tx c.t.toNat = some h → s.bufOf h ≠ none) :
    txT4 c s = .next ((vacated c.t.toNat s).setOp
      (.transmit { c with phase := .t5, old := s.slotAt .tx c.t.toNat })) := by
  rw [txT4, freeSlotBuf_eq_vacated live]
  rfl

theorem txT5_of_reachable (reach : SlotReachable .tx c.t.toNat s) (memory : ringInMemory .tx s = true) :
    txT5 c s = .next ((marked .tx c.t.toNat cmdRsEop s).setOp (.transmit { c with phase := .t6 })) := by
  rw [txT5, (markOwned_admittedWhen .tx c.t.toNat cmdRsEop s).next ⟨reach, memory, by decide⟩]
  rfl

theorem txT6_of_live (reach : SlotReachable .tx c.t.toNat s) (only : inOtherSlot c.b .tx c.t.toNat s = false)
    (live : s.bufOf c.b = some b) (ok : Sendable c.b s) :
    txT6 c s = .next ((described c.b b c.t.toNat s).setOp (.transmit { c with phase := .t7 })) := by
  have kept : (installed c.b b .tx c.t.toNat s).bufOf c.b = some { b with holder := .ring .tx c.t.toNat } :=
    bufOf_installed_self
  rw [txT6, whenSendable_of_sendable ok, installSlot_live reach only live, andThen_next, payloadLength_of_live kept,
    payloadAddress_of_live kept]
  rfl

theorem txT7_of_tail (ready : s.txReady = true) (held : s.txLock = .held s.issuer) (several : 1 < ringSize .tx s)
    (tail : c.t.toNat = tailIndex .tx s) (within : c.t.toNat < ringSize .tx s) (room : s.txPending < ringSize .tx s) :
    txT7 c s = .next ((advanced c.t.toNat s).setOp (.transmit { c with phase := .t8 })) := by
  rw [txT7, fence, wrTdt_eq_advanced ready held several tail within room]
  rfl

/-- UNLOCK TX, and the result (R208, R209). -/
def txEnd (code : Byte) (s : State) : Result := unlockThen .tx s (fun u => .next (u.clearOp.respond code 0))

theorem txEnd_of_held (held : s.txLock = .held s.issuer) (code : Byte) :
    txEnd code s = .next ((s.setLock .tx .free).clearOp.respond code 0) :=
  unlockThen_of_held (r := .tx) held _

end Phases

/-! What an operation that goes on leaves. -/

@[simp] theorem bufOf_setOp (h : Handle) (o : Op) (s : State) : (s.setOp o).bufOf h = s.bufOf h := rfl

@[simp] theorem byteAt_setOp (a : Addr) (o : Op) (s : State) : (s.setOp o).byteAt a = s.byteAt a := rfl

@[simp] theorem txdCmd_setOp (i : Nat) (o : Op) (s : State) : txdCmd i (s.setOp o) = txdCmd i s := rfl

@[simp] theorem descStatus_setOp (r : Ring) (i : Nat) (o : Op) (s : State) :
    descStatus r i (s.setOp o) = descStatus r i s := by
  cases r <;> rfl

@[simp] theorem descPayload_setOp (r : Ring) (i : Nat) (o : Op) (s : State) :
    descPayload r i (s.setOp o) = descPayload r i s := by
  cases r <;> rfl

@[simp] theorem descLength_setOp (r : Ring) (i : Nat) (o : Op) (s : State) :
    descLength r i (s.setOp o) = descLength r i s := by
  cases r <;> rfl

/-- The operation goes on after work that leaves the operations in progress. -/
theorem opBecomes_setOp_of_same {s t : State} (ops : t.ops = s.ops) (issuer : t.issuer = s.issuer) (o : Op) :
    OpBecomes (some o) s (t.setOp o) := by
  have becomes := opBecomes_setOp o t
  simp only [OpBecomes, State.opOf, ops, issuer] at becomes ⊢
  exact becomes

/-- Settles O29: each of the four phases by its own rule. -/
theorem transmitTestsTheTailSlot : Obligations.TransmitTestsTheTailSlot := by
  unfold Obligations.TransmitTestsTheTailSlot
  refine fun s c running op => ⟨fun phase free => ?t1, fun a phase held other => ?waits, fun phase => ?t2,
    fun phase => ?t3, fun phase held => ?t9⟩
  all_goals have step := proceed_at running op phase
  case t1 => exact ⟨_, step.trans (txT1_of_free free), rfl, opBecomes_setOp _ s⟩
  case waits => exact step.trans (txT1_of_held_other held other)
  case t2 => exact ⟨_, step, rfl, opBecomes_setOp _ s⟩
  case t3 => exact ⟨_, step, rfl, opBecomes_setOp _ s⟩
  case t9 => exact ⟨_, step.trans (txEnd_of_held held codeRingBusy), rfl, opBecomes_clearOp s⟩

/-- Settles O30: each of the five phases by its own rule, T4 by whether the slot is empty. -/
theorem transmitFillsAndCommitsTheSlot : Obligations.TransmitFillsAndCommitsTheSlot := by
  unfold Obligations.TransmitFillsAndCommitsTheSlot
  refine fun s c running op => ⟨fun phase slot => ?empty, fun h b phase slot live => ?freed,
    fun phase held ready within memory => ?t5, fun b phase held within ready live holds pos fits only => ?t6,
    fun phase no => ?refused, fun phase ready held several tail within room => ?t7, fun phase held => ?t8⟩
  all_goals have step := proceed_at running op phase
  case empty =>
    have vacates := txT4_of_live (s := s) (c := { c with phase := .t4 }) (by simp [slot])
    refine ⟨_, step.trans vacates, ?_, slot ▸ opBecomes_setOp_of_same rfl rfl _⟩
    simp only [vacated, slot]
    rw [Option.map_none, Option.toList_none, List.append_nil]
    rfl
  case freed =>
    have vacates := txT4_of_live (s := s) (c := { c with phase := .t4 }) (by simp [slot, live])
    refine ⟨_, step.trans vacates, ?_, holderOf_of_pool (bufOf_vacated_self slot), fun g other => ?_,
      slot ▸ opBecomes_setOp_of_same rfl rfl _⟩
    · simp only [vacated, slot]
      rfl
    · exact bufOf_vacated_other fun e => other (Option.some.inj (e.symm.trans slot))
  case t5 =>
    have marks := txT5_of_reachable (c := { c with phase := .t5 }) ⟨held, ready, within⟩ memory
    refine ⟨_, step.trans marks, rfl, ?_, ?_, fun a cmd status => ?_, opBecomes_setOp_of_same rfl rfl _⟩
    · rw [txdCmd_setOp, txdCmd_marked]
      rfl
    · rw [descStatus_setOp, descStatus_marked]
    · rw [byteAt_setOp, byteAt_marked_tx _ cmd status]
  case t6 =>
    have describes := txT6_of_live (c := { c with phase := .t6 }) ⟨held, ready, within⟩ only live
      (sendable_of_live live holds pos fits)
    refine ⟨_, step.trans describes, congrArg (State.setOp _) (described_frame c.b b _ s), ?_, fun g other => ?_, ?_,
      ?_, fun a out => ?_, opBecomes_setOp_of_same (described_ops c.b b _ s) (described_issuer c.b b _ s) _⟩
    · rw [bufOf_setOp, bufOf_described_self]
    · rw [bufOf_setOp, otherBuffersSame_described c.b b _ s g other]
    · rw [descPayload_setOp, descPayload_described]
    · rw [descLength_setOp, toNat_descLength_described fits]
    · rw [byteAt_setOp, sameOutside_described c.b b _ s a out]
  case refused => exact step ▸ whenSendable_refuses (not_sendable no) _
  case t7 =>
    have advances := txT7_of_tail (c := { c with phase := .t7 }) ready held several tail within room
    exact ⟨_, step.trans advances, rfl, opBecomes_setOp_of_same rfl rfl _⟩
  case t8 => exact ⟨_, step.trans (txEnd_of_held held codeOk), rfl, opBecomes_clearOp s⟩

/-! A run of phases (log 1). -/

section Runs

variable {s : State} {c c' : TxCtx} {b : Handle}

theorem setOp_setOp (o o' : Op) (s : State) : (s.setOp o).setOp o' = s.setOp o' :=
  congrArg (fun l => { s with ops := l }) (Assoc.insert_insert _ o o' s.ops)

theorem clearOp_setOp (idle : s.opOf s.issuer = none) (o : Op) : (s.setOp o).clearOp = s :=
  congrArg (fun l => { s with ops := l }) (Assoc.erase_insert_of_absent idle o)

theorem setLock_setLock (r : Ring) (l l' : Lock) (s : State) : (s.setLock r l).setLock r l' = s.setLock r l' := by
  cases r <;> rfl

theorem setLock_of_lockOf {r : Ring} {l : Lock} (h : s.lockOf r = l) : s.setLock r l = s := by
  subst h
  cases r <;> rfl

/-- Where the next phase changes nothing, no run of phases does. -/
theorem runPhases_of_still (still : proceed s = .next s) (n : Nat) : runPhases n s = .next s := by
  induction n with
  | zero => rfl
  | succ n ih => rw [runPhases, still, andThen_next, ih]

theorem proceed_of_idle (running : s.failed = false) (idle : s.opOf s.issuer = none) : proceed s = .next s := by
  simp [proceed, running, idle]

theorem proceed_setOp (running : s.failed = false) (c : TxCtx) :
    proceed (s.setOp (.transmit c)) = txPhase c (s.setOp (.transmit c)) :=
  proceed_of_opOf (s := s.setOp (.transmit c)) running (opOf_setOp_self _ s)

/-- A phase that goes on does its work under the operation in progress, which only then becomes the next one. -/
theorem runPhases_step {n : Nat} {t u : State} (running : s.failed = false)
    (phase : txPhase c (s.setOp (.transmit c)) = .next (u.setOp (.transmit c'))) (work : u = t.setOp (.transmit c)) :
    runPhases (n + 1) (s.setOp (.transmit c)) = runPhases n (t.setOp (.transmit c')) := by
  rw [runPhases, proceed_setOp running, phase, andThen_next, work, setOp_setOp]

/-- The last phase gives the lock back, and nothing of the operation is left. -/
theorem runPhases_end {code : Byte} {n : Nat} (running : s.failed = false) (idle : s.opOf s.issuer = none)
    (held : s.txLock = .held s.issuer) (phase : txPhase c = txEnd code) :
    runPhases (n + 1) (s.setOp (.transmit c)) = .next ((s.setLock .tx .free).respond code 0) := by
  have ended : txEnd code (s.setOp (.transmit c)) =
      .next (((s.setLock .tx .free).setOp (.transmit c)).clearOp.respond code 0) :=
    txEnd_of_held (s := s.setOp (.transmit c)) held code
  rw [clearOp_setOp (s := s.setLock .tx .free) idle] at ended
  rw [runPhases, proceed_setOp running, phase, ended, andThen_next]
  exact runPhases_of_still (proceed_of_idle (s := (s.setLock .tx .free).respond code 0) running idle) n

/-- A TRANSMIT that has tested the slot at the tail (R203). -/
def tested (b : Handle) (s : State) : TxCtx :=
  { phase := if ddSet (descStatus .tx (tailIndex .tx s) s) then .t4 else .t9, b := b
    t := s.regs.tdt.extractLsb' 0 16, st := descStatus .tx (tailIndex .tx s) s, old := none }

/-- T1 to T3, where the lock is free. -/
theorem runPhases_tests (running : s.failed = false) (free : s.txLock = .free) (b : Handle) (n : Nat) :
    runPhases (n + 3) (s.setOp (.transmit (txStartCtx b))) =
      runPhases n ((s.setLock .tx (.held s.issuer)).setOp (.transmit (tested b s))) := by
  let locked := s.setLock .tx (.held s.issuer)
  let start := txStartCtx b
  calc runPhases (n + 3) (s.setOp (.transmit start))
    _ = runPhases (n + 2) (locked.setOp (.transmit { start with phase := .t2 })) :=
      runPhases_step running (txT1_of_free (s := s.setOp _) free) rfl
    _ = runPhases (n + 1) (locked.setOp (.transmit { start with phase := .t3, t := s.regs.tdt.extractLsb' 0 16 })) :=
      runPhases_step running rfl rfl
    _ = runPhases n (locked.setOp (.transmit (tested b s))) := runPhases_step running rfl rfl

theorem exec_transmit (can : CanIssue .thread s) (ready : s.txReady = true) (named : b ≠ 0) (ok : Sendable b s) :
    exec (.transmit b) s = runPhases 8 (s.setOp (.transmit (txStartCtx b))) := by
  have start := (startTransmit_admittedWhen can b).next ⟨ready, named, ok⟩
  change andThen (startTransmit b s) (runPhases txPhases) = _
  rw [start, andThen_next]
  rfl

theorem exec_transmit_of_free (can : CanIssue .thread s) (ready : s.txReady = true) (free : s.txLock = .free)
    (named : b ≠ 0) (ok : Sendable b s) :
    exec (.transmit b) s = runPhases 5 ((s.setLock .tx (.held s.issuer)).setOp (.transmit (tested b s))) := by
  rw [exec_transmit can ready named ok]
  obtain ⟨running, -, -⟩ := can
  exact runPhases_tests running free b 5

/-- Done clear at the tail: T9 ends the run, and the lock is free as before (R209). -/
theorem exec_transmit_of_busy (can : CanIssue .thread s) (ready : s.txReady = true) (free : s.txLock = .free)
    (named : b ≠ 0) (ok : Sendable b s) (busy : ddSet (descStatus .tx (tailIndex .tx s) s) = false) :
    exec (.transmit b) s = .next (s.respond codeRingBusy 0) := by
  have phase : (tested b s).phase = .t9 := by simp [tested, busy]
  have last : txPhase (tested b s) = txEnd codeRingBusy := by
    funext u
    rw [txPhase, phase]
    rfl
  rw [exec_transmit_of_free can ready free named ok]
  obtain ⟨running, -, idle⟩ := can
  rw [runPhases_end (s := s.setLock .tx (.held s.issuer)) running idle rfl last, setLock_setLock,
    setLock_of_lockOf (r := .tx) free]

/-- The lock held by another agent: the run stays at T1 (R201). -/
theorem exec_transmit_of_held_other {a : Agent} (can : CanIssue .thread s) (ready : s.txReady = true)
    (held : s.txLock = .held a) (other : a ≠ s.issuer) (named : b ≠ 0) (ok : Sendable b s) :
    exec (.transmit b) s = .next (s.setOp (.transmit (txStartCtx b))) := by
  rw [exec_transmit can ready named ok]
  obtain ⟨running, -, -⟩ := can
  exact runPhases_of_still 
    ((proceed_setOp running (txStartCtx b)).trans (txT1_of_held_other (s := s.setOp _) held other)) 8

end Runs

/-- Settles O32: a run that ends in T9, one that stays at T1, and the tests before the first phase. -/
theorem transmitBusyOrWaiting : Obligations.TransmitBusyOrWaiting := by
  unfold Obligations.TransmitBusyOrWaiting
  refine fun s b can => ⟨fun ready named holds pos fits => ⟨fun free busy => ?busy, fun a held other => ?waits⟩,
    fun no => ?refused⟩
  case busy => exact exec_transmit_of_busy can ready free named ⟨holds, pos, fits⟩ busy
  case waits =>
    exact ⟨_, _, exec_transmit_of_held_other can ready held other named ⟨holds, pos, fits⟩, rfl, opBecomes_setOp _ s,
      rfl, rfl⟩
  case refused =>
    refine refuses_andThen ((startTransmit_admittedWhen can b).refuses ?_)
    rintro ⟨ready, named, ok⟩
    rcases no with unready | unnamed | no
    · simp [ready] at unready
    · exact named unnamed
    · exact not_sendable no ok

/-! A run that finds Done set (R203 to R208). -/

/-- The new buffer may go into slot `i`, the tail's, and the one that is there out of it (R200, R204 to R207). -/
structure Enqueueable (h : Handle) (b : Buffer) (i : Nat) (s : State) : Prop where
  ready : s.txReady = true
  several : 1 < ringSize .tx s
  memory : ringInMemory .tx s = true
  tail : i = tailIndex .tx s
  within : i < ringSize .tx s
  room : s.txPending < ringSize .tx s
  live : s.bufOf h = some b
  holds : b.holder = .caller s.issuer
  pos : 1 ≤ b.len
  fits : b.len ≤ 0xFFFF
  only : inOtherSlot h .tx i s = false
  old : ∀ g, s.slotAt .tx i = some g → g ≠ h ∧ s.bufOf g ≠ none

/-- The state after the commit (R207). -/
def enqueued (h : Handle) (b : Buffer) (i : Nat) (s : State) : State :=
  advanced i (described h b i (marked .tx i cmdRsEop (vacated i s)))

section Enqueue

variable {h g : Handle} {b : Buffer} {i : Nat} {s : State} {c : TxCtx}

theorem Enqueueable.live_vacated (can : Enqueueable h b i s) : (vacated i s).bufOf h = some b :=
  (bufOf_vacated_other fun slot => (can.old h slot).left rfl).trans can.live

theorem runPhases_t4 {n : Nat} (running : s.failed = false) (phase : c.phase = .t4)
    (live : ∀ g, s.slotAt .tx c.t.toNat = some g → s.bufOf g ≠ none) :
    runPhases (n + 1) (s.setOp (.transmit c)) =
      runPhases n ((vacated c.t.toNat s).setOp (.transmit { c with phase := .t5, old := s.slotAt .tx c.t.toNat })) :=
  runPhases_step running (by rw [txPhase, phase]; exact txT4_of_live (s := s.setOp _) live)
    (vacated_resync _ _ _ s)

theorem runPhases_t5 {n : Nat} (running : s.failed = false) (phase : c.phase = .t5)
    (reach : SlotReachable .tx c.t.toNat s) (memory : ringInMemory .tx s = true) :
    runPhases (n + 1) (s.setOp (.transmit c)) =
      runPhases n ((marked .tx c.t.toNat cmdRsEop s).setOp (.transmit { c with phase := .t6 })) :=
  runPhases_step running (by rw [txPhase, phase]; exact txT5_of_reachable (s := s.setOp _) reach memory)
    (marked_resync _ _ _ _ s)

theorem runPhases_t6 {n : Nat} (running : s.failed = false) (phase : c.phase = .t6)
    (reach : SlotReachable .tx c.t.toNat s) (only : inOtherSlot c.b .tx c.t.toNat s = false)
    (live : s.bufOf c.b = some b) (ok : Sendable c.b s) :
    runPhases (n + 1) (s.setOp (.transmit c)) =
      runPhases n ((described c.b b c.t.toNat s).setOp (.transmit { c with phase := .t7 })) :=
  runPhases_step running (by rw [txPhase, phase]; exact txT6_of_live (s := s.setOp _) reach only live ok)
    (described_resync _ _ _ _ _ s)

theorem runPhases_t7 {n : Nat} (running : s.failed = false) (phase : c.phase = .t7) (ready : s.txReady = true)
    (held : s.txLock = .held s.issuer) (several : 1 < ringSize .tx s)
    (tail : c.t.toNat = tailIndex .tx s) (within : c.t.toNat < ringSize .tx s) (room : s.txPending < ringSize .tx s) :
    runPhases (n + 1) (s.setOp (.transmit c)) =
      runPhases n ((advanced c.t.toNat s).setOp (.transmit { c with phase := .t8 })) :=
  runPhases_step running (by
    rw [txPhase, phase]; exact txT7_of_tail (s := s.setOp _) ready held several tail within room)
    (advanced_resync _ _ _ s)

/-- T4 to T8 under the lock. -/
theorem runPhases_enqueue (running : s.failed = false) (idle : s.opOf s.issuer = none)
    (held : s.txLock = .held s.issuer) (phase : c.phase = .t4) (can : Enqueueable c.b b c.t.toNat s) :
    runPhases 5 (s.setOp (.transmit c)) =
      .next (((enqueued c.b b c.t.toNat s).setLock .tx .free).respond codeOk 0) := by
  have reach : SlotReachable .tx c.t.toNat s := ⟨held, can.ready, can.within⟩
  let emptied := vacated c.t.toNat s
  let owned := marked .tx c.t.toNat cmdRsEop emptied
  let filled := described c.b b c.t.toNat owned
  let ctx (p : TxPhase) : TxCtx := { c with phase := p, old := s.slotAt .tx c.t.toNat }
  calc runPhases 5 (s.setOp (.transmit c))
    _ = runPhases 4 (emptied.setOp (.transmit (ctx .t5))) :=
      runPhases_t4 running phase fun g slot => (can.old g slot).right
    _ = runPhases 3 (owned.setOp (.transmit (ctx .t6))) := runPhases_t5 running rfl reach can.memory
    _ = runPhases 2 (filled.setOp (.transmit (ctx .t7))) :=
      runPhases_t6 running rfl reach ((inOtherSlot_vacated c.b c.t.toNat s).trans can.only) can.live_vacated
        (sendable_of_live can.live_vacated can.holds can.pos can.fits)
    _ = runPhases 1 ((enqueued c.b b c.t.toNat s).setOp (.transmit (ctx .t8))) :=
      runPhases_t7 running rfl can.ready held can.several can.tail can.within can.room
    _ = .next (((enqueued c.b b c.t.toNat s).setLock .tx .free).respond codeOk 0) :=
      runPhases_end running idle held rfl

theorem enqueued_resync (ops : List (Nat × Op)) (l : Lock) (h : Handle) (b : Buffer) (i : Nat) (s : State) :
    enqueued h b i (s.resync ops l) = (enqueued h b i s).resync ops l := by
  rw [enqueued, vacated_resync, marked_resync, described_resync, advanced_resync, enqueued]

theorem enqueued_setLock (h : Handle) (b : Buffer) (i : Nat) (l : Lock) (s : State) :
    enqueued h b i (s.setLock .tx l) = (enqueued h b i s).setLock .tx l :=
  enqueued_resync s.ops l h b i s

theorem Enqueueable.setLock (put : Enqueueable h b i s) (l : Lock) : Enqueueable h b i (s.setLock .tx l) :=
  ⟨put.ready, put.several, put.memory, put.tail, put.within, put.room, put.live, put.holds, put.pos, put.fits, put.only,
    put.old⟩

theorem exec_transmit_enqueues (can : CanIssue .thread s) (free : s.txLock = .free) (named : h ≠ 0)
    (done : ddSet (descStatus .tx (tailIndex .tx s) s) = true) (put : Enqueueable h b (tailIndex .tx s) s) :
    exec (.transmit h) s = .next ((enqueued h b (tailIndex .tx s) s).respond codeOk 0) := by
  have ⟨running, _, idle⟩ := can
  have run := runPhases_enqueue (c := tested h s) (s := s.setLock .tx (.held s.issuer)) running idle rfl (if_pos done)
    (put.setLock _)
  rw [enqueued_setLock, setLock_setLock, ← enqueued_setLock, setLock_of_lockOf (r := .tx) free] at run
  exact (exec_transmit_of_free can put.ready free named
    (sendable_of_live put.live put.holds put.pos put.fits)).trans run

theorem enqueued_frame (h : Handle) (b : Buffer) (i : Nat) (s : State) :
    enqueued h b i s =
      { s with
        regs := { s.regs with tdt := BitVec.ofNat 32 ((i + 1) % ringSize .tx s) }
        mem := (enqueued h b i s).mem, txBuf := s.txBuf.set i (some h), bufs := (enqueued h b i s).bufs
        txPending := s.txPending + 1
        out := s.out ++ ((s.slotAt .tx i).map Output.free).toList } := by
  have slots : (s.txBuf.set i none).set i (some h) = s.txBuf.set i (some h) := List.set_set ..
  have work : enqueued h b i s = advanced i (described h b i (marked .tx i cmdRsEop (vacated i s))) := rfl
  rw [described_frame, marked_frame] at work
  rw [work, ← slots]
  rfl

theorem bufOf_enqueued_self : (enqueued h b i s).bufOf h = some { b with holder := .ring .tx i } := by
  rw [enqueued, bufOf_advanced, bufOf_described_self]

theorem bufOf_enqueued_other (other : g ≠ h) : (enqueued h b i s).bufOf g = (vacated i s).bufOf g := by
  rw [enqueued, bufOf_advanced, otherBuffersSame_described h b i _ g other, bufOf_marked]

theorem descPayload_enqueued : descPayload .tx i (enqueued h b i s) = b.addr := by
  rw [enqueued, descPayload_advanced, descPayload_described]

theorem toNat_descLength_enqueued (fits : b.len ≤ 0xFFFF) : (descLength .tx i (enqueued h b i s)).toNat = b.len := by
  rw [enqueued, descLength_advanced, toNat_descLength_described fits]

theorem descStatus_enqueued : descStatus .tx i (enqueued h b i s) = 0 := by
  rw [enqueued, descStatus_advanced, descStatus_described, descStatus_marked]

theorem txdCmd_enqueued (i : Idx) : txdCmd i.toNat (enqueued h b i.toNat s) = cmdRsEop := by
  rw [enqueued, txdCmd_advanced, txdCmd_described, txdCmd_marked]

theorem byteAt_enqueued {a : Addr} (fields : outside (descAddr .tx i 0 s) 10 a) (cmd : a ≠ descAddr .tx i offCmd s)
    (status : a ≠ descAddr .tx i offStatus s) : (enqueued h b i s).byteAt a = s.byteAt a := by
  have described := sameOutside_described h b i (marked .tx i cmdRsEop (vacated i s)) a
  have marked_regs : (marked .tx i cmdRsEop (vacated i s)).regs = s.regs := rfl
  rw [descAddr_congr marked_regs] at described
  exact (described fields).trans (byteAt_marked_tx (s := vacated i s) cmdRsEop cmd status)

end Enqueue

@[simp] theorem bufOf_respond (h : Handle) (c : Byte) (v : Word) (s : State) :
    (s.respond c v).bufOf h = s.bufOf h := rfl

@[simp] theorem descPayload_respond (r : Ring) (i : Nat) (c : Byte) (v : Word) (s : State) :
    descPayload r i (s.respond c v) = descPayload r i s := by
  cases r <;> rfl

@[simp] theorem descLength_respond (r : Ring) (i : Nat) (c : Byte) (v : Word) (s : State) :
    descLength r i (s.respond c v) = descLength r i s := by
  cases r <;> rfl

/-- Settles O31: the run takes T1 to T8, and the work of each phase is seen in the state after the commit. -/
theorem transmitEnqueues : Obligations.TransmitEnqueues := by
  unfold Obligations.TransmitEnqueues
  intro s h b can ready free several memory within room named live holds pos fits done only old
  have put : Enqueueable h b (tailIndex .tx s) s :=
    ⟨ready, several, memory, rfl, within, room, live, holds, pos, fits, only, old⟩
  refine ⟨_, exec_transmit_enqueues can free named done put, congrArg (State.respond codeOk 0) (enqueued_frame h b _ s),
    ?own, fun g slot => holderOf_of_pool ?freed, fun g other unnamed => ?kept, ?payload, ?length, ?command, ?status,
    fun a fields cmd status => ?bytes⟩
  case own => rw [bufOf_respond, bufOf_enqueued_self]
  case freed =>
    obtain ⟨other, -⟩ := old g slot
    rw [bufOf_respond, bufOf_enqueued_other other, bufOf_vacated_self slot]
  case kept => rw [bufOf_respond, bufOf_enqueued_other other, bufOf_vacated_other unnamed]
  case payload => rw [descPayload_respond, descPayload_enqueued]
  case length => rw [descLength_respond, toNat_descLength_enqueued fits]
  case command =>
    rw [txdCmd_respond]
    exact txdCmd_enqueued (s.regs.tdt.extractLsb' 0 16)
  case status => rw [descStatus_respond, descStatus_enqueued]
  case bytes => rw [byteAt_respond, byteAt_enqueued fields cmd status]

/-! A run that answers RingBusy (R209, R213). -/

/-- The phase is one of a TRANSMIT that found Done set. -/
def TxPhase.enqueues : TxPhase → Bool
  | .t8 => true
  | p => txOwns p

/-- The issuer's TRANSMIT found Done set, and has ended with OK if it has ended. -/
def EnqueuesOrDone (s : State) : Prop :=
  (∃ c : TxCtx, s.opOf s.issuer = some (.transmit c) ∧ c.phase.enqueues = true) ∨
    (s.opOf s.issuer = none ∧ s.out.getLast? = some (.result s.issuer (respWord codeOk 0)))

section Enqueues

variable {s t : State} {c : TxCtx}

theorem enqueuesOrDone_of_goto (phase : c.phase.enqueues = true) (e : txGoto c s = .next t) : EnqueuesOrDone t := by
  cases e
  exact .inl ⟨c, opOf_setOp_self _ s, phase⟩

theorem txPhase_enqueuesOrDone (phase : c.phase.enqueues = true) (e : txPhase c s = .next t) : EnqueuesOrDone t := by
  unfold txPhase at e
  cases hp : c.phase <;> simp only [hp] at e phase
  case t1 | t2 | t3 | t9 => cases phase
  case t4 | t5 | t7 =>
    obtain ⟨u, -, e⟩ := andThen_eq_next.mp e
    exact enqueuesOrDone_of_goto rfl e
  case t6 =>
    obtain ⟨-, -, -, e⟩ := whenSendable_eq_next.mp e
    obtain ⟨u, -, e⟩ := andThen_eq_next.mp e
    exact enqueuesOrDone_of_goto (c := { c with phase := .t7 }) rfl e
  case t8 =>
    obtain ⟨-, e⟩ := unlockThen_eq_next.mp e
    cases e
    refine .inr ⟨opOf_clearOp_self (s.setLock .tx .free), ?_⟩
    rw [respond_out, List.getLast?_concat]
    rfl

theorem proceed_enqueuesOrDone (h : EnqueuesOrDone s) (e : proceed s = .next t) : EnqueuesOrDone t := by
  unfold proceed at e
  split at e
  · cases e
  rcases h with ⟨c, op, phase⟩ | ⟨idle, last⟩
  · rw [op] at e
    exact txPhase_enqueuesOrDone phase e
  · rw [idle] at e
    cases e
    exact .inr ⟨idle, last⟩

theorem runPhases_enqueuesOrDone {n : Nat} (h : EnqueuesOrDone s) (e : runPhases n s = .next t) : EnqueuesOrDone t := by
  induction n generalizing s with
  | zero =>
    cases e
    exact h
  | succ n ih =>
    obtain ⟨u, hu, e⟩ := andThen_eq_next.mp e
    exact ih (proceed_enqueuesOrDone h hu) e

/-- A run that found Done set does not end with RingBusy. -/
theorem exec_transmit_ne_busy {b : Handle} (can : CanIssue .thread s) (ready : s.txReady = true)
    (free : s.txLock = .free) (named : b ≠ 0) (ok : Sendable b s) (done : ddSet (descStatus .tx (tailIndex .tx s) s) = true) :
    exec (.transmit b) s ≠ .next (s.respond codeRingBusy 0) := by
  intro e
  rw [exec_transmit_of_free can ready free named ok] at e
  have found : (tested b s).phase = .t4 := if_pos done
  have started : EnqueuesOrDone ((s.setLock .tx (.held s.issuer)).setOp (.transmit (tested b s))) :=
    .inl ⟨_, opOf_setOp_self _ (s.setLock .tx (.held s.issuer)), by rw [found]; rfl⟩
  obtain ⟨-, -, idle⟩ := can
  rcases runPhases_enqueuesOrDone started e with ⟨c, op, -⟩ | ⟨-, last⟩
  · cases idle.symm.trans op
  · rw [respond_out, List.getLast?_concat] at last
    have codes : respWord codeRingBusy 0 = respWord codeOk 0 := by injection (Option.some.inj last)
    revert codes
    decide

end Enqueues

/-- The slot at the tail is the hardware's exactly when all slots are (R213, R284). -/
theorem inHwset_tail_iff {s : State} (legal : TxLegal s) (ready : s.txReady = true) :
    inHwset (tailIndex .tx s) s = true ↔ s.txPending = ringSize .tx s := by
  obtain ⟨size, head, bound, tail⟩ := legal.ring ready
  rw [inHwset_iff, tail]
  constructor
  · rintro ⟨k, hk, same⟩
    by_contra short
    have steps := congrArg (ringDist (headIndex .tx s) · (ringSize .tx s)) same
    simp only [ringDist_add_mod head (show k < ringSize .tx s by omega),
      ringDist_add_mod head (show s.txPending < ringSize .tx s by omega)] at steps
    omega
  · intro full
    exact ⟨0, by omega, by rw [full, Nat.add_zero, Nat.add_mod_right]⟩

/-- Settles O33: Done is clear at the tail exactly when the slot there is the hardware's. -/
theorem ringBusyExactlyWhenFull : Obligations.RingBusyExactlyWhenFull := by
  unfold Obligations.RingBusyExactlyWhenFull
  intro s b can legal exactly ready free named holds pos fits
  have ok : Sendable b s := ⟨holds, pos, fits⟩
  have status := exactly.done (tailIndex .tx s) (legal.tail_lt ready)
  rw [← inHwset_tail_iff legal ready]
  constructor
  · intro busy
    by_contra spared
    rw [(Bool.not_eq_true _).mp spared] at status
    exact exec_transmit_ne_busy can ready free named ok status busy
  · intro owned
    rw [owned] at status
    exact exec_transmit_of_busy can ready free named ok status

end Sys2Proof.Machine
end

section
/-! PROOFS. RX_DRAIN (R220 to R235; spec file 43_receive_path.md): one rule for each phase, which says where it goes on
and with which state; a round is the seven phases that consume one slot, and a drain is rounds, one after another. -/

namespace Sys2Proof.Machine

open Sys2Proof

/-! The work of the phases (R224 to R227). -/

section RxWork

variable {g h : Handle} {b : Buffer} {i n : Nat} {s t : State}

theorem bufferAt_of_live (live : s.bufOf h = some b) : s.bufferAt h = b := by
  rw [State.bufferAt, live, Option.getD_some]

theorem bufOf_eq_bufferAt (live : s.bufOf h ≠ none) : s.bufOf h = some (s.bufferAt h) := by
  obtain ⟨b, listed⟩ := Option.ne_none_iff_exists'.mp live
  rw [bufferAt_of_live listed, listed]

/-- Listing a buffer leaves no other one unlisted. -/
theorem bufOf_setBuf_ne_none (live : s.bufOf g ≠ none) (h : Handle) (b : Buffer) : (s.setBuf h b).bufOf g ≠ none := by
  by_cases same : g = h
  · rw [same, bufOf_setBuf_self]
    exact Option.some_ne_none b
  · rwa [bufOf_setBuf_other same]

/-- The state after APPEND to a live buffer (R188). -/
def appended (h : Handle) (n : Nat) (s : State) : State :=
  (s.setBuf h { s.bufferAt h with len := n }).emit (.append h n)

theorem appendBuf_eq_appended :
    appendBuf h n s = .next t ↔ n ≤ s.cfg.rxBufBytes ∧ s.bufOf h ≠ none ∧ appended h n s = t := by
  rw [appendBuf_eq_next, Option.ne_none_iff_exists']
  refine and_congr_right fun _ => ⟨fun ⟨b, live, e⟩ => ⟨⟨b, live⟩, ?_⟩, fun ⟨⟨b, live⟩, e⟩ => ⟨b, live, ?_⟩⟩
  all_goals rw [← e, appended, bufferAt_of_live live]

theorem bufOf_appended_ne_none (live : s.bufOf g ≠ none) (h : Handle) (n : Nat) : (appended h n s).bufOf g ≠ none :=
  bufOf_setBuf_ne_none live h _

/-- The state after DELIVER of a live buffer (R189). -/
def delivered (h : Handle) (s : State) : State :=
  (s.setBuf h { s.bufferAt h with holder := .upstream }).emit (.deliver h)

theorem deliverBuf_eq_delivered : deliverBuf h s = .next t ↔ s.bufOf h ≠ none ∧ delivered h s = t := by
  rw [deliverBuf_eq_next, Option.ne_none_iff_exists']
  refine ⟨fun ⟨b, live, e⟩ => ⟨⟨b, live⟩, ?_⟩, fun ⟨⟨b, live⟩, e⟩ => ⟨b, live, ?_⟩⟩
  all_goals rw [← e, delivered, bufferAt_of_live live]

theorem bufOf_delivered_ne_none (live : s.bufOf g ≠ none) (h : Handle) : (delivered h s).bufOf g ≠ none :=
  bufOf_setBuf_ne_none live h _

/-- The state after the replacement went into its slot, its address into the descriptor, and the status byte was
cleared (R226). -/
def rearmed (h : Handle) (i : Nat) (s : State) : State :=
  setDescStatus .rx i 0 (setDescPayload .rx i (s.bufferAt h).addr (installed h (s.bufferAt h) .rx i s))

theorem rearmed_bufs (h : Handle) (i : Nat) (s : State) :
    (rearmed h i s).bufs = Assoc.insert h.toNat { s.bufferAt h with holder := .ring .rx i } s.bufs := rfl

theorem rearmed_frame (h : Handle) (i : Nat) (s : State) :
    rearmed h i s =
      { s with
        mem := (rearmed h i s).mem, rxBuf := s.rxBuf.set i (some h), bufs := (rearmed h i s).bufs } := by
  obtain ⟨m, work⟩ : ∃ m, rearmed h i s = { installed h (s.bufferAt h) .rx i s with mem := m } := ⟨_, rfl⟩
  rw [work]
  rfl

theorem bufOf_rearmed_self :
    (rearmed h i s).bufOf h = some { s.bufferAt h with holder := .ring .rx i } := bufOf_installed_self

theorem otherBuffersSame_rearmed (h : Handle) (i : Nat) (s : State) : OtherBuffersSame h s (rearmed h i s) :=
  otherBuffersSame_installed h _ .rx i s s.draws

theorem descStatus_rearmed : descStatus .rx i (rearmed h i s) = 0 := descStatus_setDescStatus .rx i 0 _

/-- The status byte is none of the bytes of the address (R108). -/
theorem descPayload_setDescStatus (r : Ring) (i : Nat) (v : Byte) (s : State) :
    descPayload r i (setDescStatus r i v s) = descPayload r i s := by
  have apart : Memory.readBytes (setDescStatus r i v s).mem (descAddr r i offAddr s) 8 =
      Memory.readBytes s.mem (descAddr r i offAddr s) 8 := by
    refine Memory.readBytes_writeBytes_apart s.mem fun j hj d hd same => ?_
    rw [List.length_singleton] at hd
    rw [descAddr_eq_add r i offStatus, descAddr_eq_add r i offAddr, add_ofNat_add, add_ofNat_add] at same
    have := add_ofNat_injective (by simp only [offAddr]; omega) (by simp only [offStatus]; omega) same
    simp only [offAddr, offStatus] at this
    omega
  rw [descPayload, descAddr_congr (setDescStatus_regs r i v s), State.load, apart]
  rfl

theorem descPayload_rearmed : descPayload .rx i (rearmed h i s) = (s.bufferAt h).addr :=
  (descPayload_setDescStatus .rx i 0 _).trans (descPayload_setDescPayload .rx i _ _)

theorem byteAt_rearmed {a : Addr} (payload : outside (descAddr .rx i 0 s) 8 a) (status : a ≠ descAddr .rx i offStatus s) :
    (rearmed h i s).byteAt a = s.byteAt a := by
  refine (byteAt_storeByte_other status 0 _).trans ?_
  exact byteAt_storeBytes_outside (installed h (s.bufferAt h) .rx i s) (by rwa [length_leBytes])

/-- The receive tail written (R145). -/
def tailAt (v : Word) (s : State) : State := { s with regs := { s.regs with rdt := v } }

theorem wrRdt_eq_tailAt (held : s.rxLock = .held s.issuer) (within : i < ringSize .rx s) :
    wrRdt (indexWord i) s = .next (tailAt (indexWord i) s) := by
  have short : i < 2 ^ 16 := within.trans (ringSize_lt .rx s)
  refine wrRdt_eq_next.mpr ⟨fun _ => held, indexOk_indexWord short, ?_, rfl⟩
  rwa [indexField_indexWord short]

/-- A slot index widened is the index as a register holds it (R110). -/
theorem setWidth_eq_indexWord (i : Idx) : i.setWidth 32 = indexWord i.toNat := by
  rw [indexWord, ← BitVec.toNat_setWidth_of_le (w := 16) (w' := 32) (by decide), BitVec.ofNat_toNat, BitVec.setWidth_eq]

end RxWork

/-! The phases (R221 to R228). -/

section RxPhases

variable {s t : State} {c : RxCtx} {g : Grant} {h : Handle}

/-- The next phase of a drain is the one it stands at. -/
theorem proceed_drain {p : RxPhase} (running : s.failed = false) (op : s.opOf s.issuer = some (.irqHandler (.i3 c)))
    (phase : c.phase = p) : proceed s = rxPhase { c with phase := p } s := by
  subst phase
  exact proceed_of_opOf running op

/-- A replacement buffer, and the grant it came from (R223). -/
def given (g : Grant) (s : State) : State := granted s.cfg.headroom g s.nextProposal

theorem rxD3_of_grant (good : badGrant [] s = false) (answer : allocAnswer [] s = some g) :
    rxD3 c s = .next ((given g s).setOp (.irqHandler (.i3 { c with phase := .d4, nb := some g.handle }))) :=
  allocThen_answer good answer

/-- No replacement buffer: the answer is used up (R223). -/
def ungiven (s : State) : State := s.nextProposal.emit (.alloc s.cfg.headroom none)

theorem rxD3_of_failure (good : badGrant [] s = false) (answer : allocAnswer [] s = none) :
    rxD3 c s = .next ((ungiven s).setOp (.irqHandler (.i3 { c with phase := .dx, nb := none }))) :=
  allocThen_failure good answer

theorem rxD4_eq_next :
    rxD4 c s = .next t ↔ ∃ cur, s.slotAt .rx c.next.toNat = some cur ∧
      (descLength .rx c.next.toNat s).toNat ≤ s.cfg.rxBufBytes ∧ s.bufOf cur ≠ none ∧
      (appended cur (descLength .rx c.next.toNat s).toNat s).setOp
        (.irqHandler (.i3 { c with phase := .d5, len := descLength .rx c.next.toNat s, cur := some cur })) = t := by
  unfold rxD4
  cases s.slotAt .rx c.next.toNat with
  | none => simp
  | some cur => simp [andThen_eq_next, appendBuf_eq_appended, rxGoto, and_assoc]

theorem rxD5_eq_next (found : c.cur = some h) :
    rxD5 c s = .next t ↔
      s.bufOf h ≠ none ∧ (delivered h s).setOp (.irqHandler (.i3 { c with phase := .d6 })) = t := by
  simp [rxD5, found, andThen_eq_next, deliverBuf_eq_delivered, rxGoto]

theorem rxD6_eq_next (replacement : c.nb = some h) (live : s.bufOf h ≠ none) :
    rxD6 c s = .next t ↔
      SlotReachable .rx c.next.toNat s ∧ inOtherSlot h .rx c.next.toNat s = false ∧
        (rearmed h c.next.toNat s).setOp (.irqHandler (.i3 { c with phase := .d7 })) = t := by
  have address := payloadAddress_of_live (bufOf_installed_self (h := h) (b := s.bufferAt h) (r := .rx)
    (i := c.next.toNat) (s := s))
  by_cases reach : SlotReachable .rx c.next.toNat s
  · cases only : inOtherSlot h .rx c.next.toNat s with
    | false =>
      simp only [rxD6, replacement, installSlot_live reach only (bufOf_eq_bufferAt live), andThen_next, rxReplacement,
        address, rxGoto, Host.Outcome.next.injEq, reach, true_and]
      rfl
    | true => simp [rxD6, replacement, installSlot_some reach, only]
  · obtain ⟨x, refused⟩ := installSlot_refuses reach (some h)
    simp [rxD6, replacement, refused, reach]

theorem rxD7_of_held (held : s.rxLock = .held s.issuer) (within : c.next.toNat < ringSize .rx s) :
    rxD7 c s = .next ((tailAt (indexWord c.next.toNat) s).setOp (.irqHandler (.i3 { c with phase := .d1 }))) := by
  rw [rxD7, fence, setWidth_eq_indexWord, wrRdt_eq_tailAt held within]
  rfl

end RxPhases

theorem allocAnswer_of_allocHandle {x : List Region} {s : State} {h : Handle} (answer : allocHandle x s = some h) :
    ∃ g, allocAnswer x s = some g ∧ g.handle = h := Option.map_eq_some_iff.mp answer

theorem nextProposal_frame (s : State) :
    s.nextProposal = { s with allocs := s.allocs.tail, draws := s.nextProposal.draws } := by
  cases input : s.allocs with
  | nil => rw [nextProposal_nil input, List.tail_nil, ← input]
  | cons a rest => rw [nextProposal_cons input, List.tail_cons]

/-- Settles O37: each of the four phases by its own rule, D3 by the allocator's answer. -/
theorem drainTestsAndAllocates : Obligations.DrainTestsAndAllocates := by
  unfold Obligations.DrainTestsAndAllocates
  refine fun s c running op => ⟨fun phase => ?d1, fun phase => ?d2, fun h phase good answer => ?grant,
    fun phase bad => ?refused, fun phase good answer => ?failure, fun phase => ?dx⟩
  all_goals have step := proceed_drain running op phase
  case d1 => exact ⟨_, step, rfl, opBecomes_setOp _ s⟩
  case d2 => exact ⟨_, step, rfl, opBecomes_setOp _ s⟩
  case grant =>
    obtain ⟨g, gives, rfl⟩ := allocAnswer_of_allocHandle answer
    obtain ⟨-, -, pool, -⟩ := allocAnswer_eq_some gives
    have fresh : (given g s).bufOf g.handle = some _ := bufOf_granted_self s.cfg.headroom g s.nextProposal
    refine ⟨_, step.trans (rxD3_of_grant good gives), ?_, pool, ?_, ?_, fun f other => ?_, ?_⟩
    · rw [given, nextProposal_frame]
      rfl
    · exact (holderOf_of_bufOf fresh).trans (by rw [nextProposal_issuer]; rfl)
    · exact payloadLength_of_live fresh
    · rw [bufOf_setOp, given, otherBuffersSame_granted _ g _ f other, State.bufOf, nextProposal_bufs]
      rfl
    · exact opBecomes_setOp_of_same (nextProposal_ops s) (nextProposal_issuer s) _
  case refused => exact step ▸ refuses_of_guard bad
  case failure =>
    have none : allocAnswer [] s = none := Option.map_eq_none_iff.mp answer
    refine ⟨_, step.trans (rxD3_of_failure good none), ?_,
      opBecomes_setOp_of_same (nextProposal_ops s) (nextProposal_issuer s) _⟩
    rw [ungiven, nextProposal_frame]
    rfl
  case dx => exact ⟨_, step, rfl, opBecomes_setOp _ s⟩

/-- Settles O38: each of the four phases by its own rule, D4 by whether the slot is empty. -/
theorem drainDeliversAndRearms : Obligations.DrainDeliversAndRearms := by
  unfold Obligations.DrainDeliversAndRearms
  refine fun s c running op => ⟨fun phase slot => ?empty, fun cur b phase slot live fits => ?d4,
    fun cur b phase found live => ?d5, fun nb b phase replacement live held within ready only => ?d6,
    fun phase within held => ?d7⟩
  all_goals have step := proceed_drain running op phase
  case empty => rw [step, rxPhase, rxD4, slot]
  case d4 =>
    have appends := (rxD4_eq_next (c := { c with phase := .d4 })).mpr ⟨cur, slot, fits, live ▸ Option.some_ne_none b, rfl⟩
    refine ⟨_, step.trans appends, rfl, ?_, fun g other => ?_, opBecomes_setOp_of_same rfl rfl _⟩
    · rw [bufOf_setOp, appended, bufferAt_of_live live]
      exact bufOf_setBuf_self cur _ s
    · exact bufOf_setBuf_other other _ s
  case d5 =>
    have delivers := (rxD5_eq_next (c := { c with phase := .d5 }) found).mpr ⟨live ▸ Option.some_ne_none b, rfl⟩
    refine ⟨_, step.trans delivers, rfl, ?_, fun g other => ?_, opBecomes_setOp_of_same rfl rfl _⟩
    · rw [bufOf_setOp, delivered, bufferAt_of_live live]
      exact bufOf_setBuf_self cur _ s
    · exact bufOf_setBuf_other other _ s
  case d6 =>
    have rearms := (rxD6_eq_next (c := { c with phase := .d6 }) replacement (live ▸ Option.some_ne_none b)).mpr
      ⟨⟨held, ready, within⟩, only, rfl⟩
    refine ⟨_, step.trans rearms, congrArg (State.setOp _) (rearmed_frame nb _ s), ?_, fun g other => ?_, ?_, ?_,
      fun a payload status => ?_, ?_⟩
    · rw [bufOf_setOp, bufOf_rearmed_self, bufferAt_of_live live]
    · rw [bufOf_setOp, otherBuffersSame_rearmed nb _ s g other]
    · rw [descPayload_setOp, descPayload_rearmed, bufferAt_of_live live]
    · rw [descStatus_setOp, descStatus_rearmed]
    · rw [byteAt_setOp, byteAt_rearmed payload status]
    · exact opBecomes_setOp_of_same (t := rearmed nb _ s) rfl rfl _
  case d7 =>
    have advances := rxD7_of_held (c := { c with phase := .d7 }) held within
    refine ⟨_, step.trans advances, ?_, opBecomes_setOp_of_same rfl rfl _⟩
    rw [setWidth_eq_indexWord]
    rfl

/-! A run of the phases (R229). The work of a phase does not look at the operations in progress. -/

theorem drainSlot_lt {s : State} (pos : 0 < ringSize .rx s) (j : Nat) : drainSlot s j < ringSize .rx s :=
  Nat.mod_lt _ pos

section DrainRuns

variable {s t : State} {c : RxCtx} {g : Grant} {h : Handle} {n : Nat}

theorem nextProposal_setOp (o : Op) (s : State) : (s.setOp o).nextProposal = s.nextProposal.setOp o := by
  cases input : s.allocs with
  | nil => rw [nextProposal_nil input, nextProposal_nil (s := s.setOp o) input]; rfl
  | cons a rest => rw [nextProposal_cons input, nextProposal_cons (s := s.setOp o) input]; rfl

theorem given_setOp (g : Grant) (o : Op) (s : State) : given g (s.setOp o) = (given g s).setOp o := by
  rw [given, nextProposal_setOp]
  rfl

theorem ungiven_setOp (o : Op) (s : State) : ungiven (s.setOp o) = (ungiven s).setOp o := by
  rw [ungiven, nextProposal_setOp]
  rfl

theorem appended_setOp (h : Handle) (n : Nat) (o : Op) (s : State) :
    appended h n (s.setOp o) = (appended h n s).setOp o := rfl

theorem delivered_setOp (h : Handle) (o : Op) (s : State) : delivered h (s.setOp o) = (delivered h s).setOp o := rfl

theorem rearmed_setOp (h : Handle) (i : Nat) (o : Op) (s : State) : rearmed h i (s.setOp o) = (rearmed h i s).setOp o :=
  rfl

theorem tailAt_setOp (v : Word) (o : Op) (s : State) : tailAt v (s.setOp o) = (tailAt v s).setOp o := rfl

theorem runDrain_phase (op : s.opOf s.issuer = some (.irqHandler (.i3 c))) (n : Nat) :
    runDrain (n + 1) s = andThen (rxPhase c s) (runDrain n) := by
  rw [runDrain, op]

theorem runDrain_setOp (c : RxCtx) (s : State) (n : Nat) :
    runDrain (n + 1) (s.setOp (.irqHandler (.i3 c))) =
      andThen (rxPhase c (s.setOp (.irqHandler (.i3 c)))) (runDrain n) :=
  runDrain_phase (s := s.setOp _) (opOf_setOp_self _ s) n

theorem runDrain_ended (n : Nat) (s : State) :
    runDrain n (s.setOp (.irqHandler .i4)) = .next (s.setOp (.irqHandler .i4)) := by
  cases n with
  | zero => rfl
  | succ n =>
    have op : (s.setOp (.irqHandler .i4)).opOf (s.setOp (.irqHandler .i4)).issuer = some (.irqHandler .i4) :=
      opOf_setOp_self _ s
    rw [runDrain, op]

/-- The locals of a drain that has tested the slot after the tail (R221, R222). -/
def scanned (c : RxCtx) (s : State) : RxCtx :=
  { c with
    phase := if ddSet (descStatus .rx (drainSlot s 0) s) then .d3 else .dx, r := s.regs.rdt.extractLsb' 0 16
    next := BitVec.ofNat 16 (drainSlot s 0), st := descStatus .rx (drainSlot s 0) s }

/-- A slot index fits its 16 bits (R29). -/
theorem toNat_ofNat_drainSlot (pos : 0 < ringSize .rx s) (j : Nat) :
    (BitVec.ofNat 16 (drainSlot s j)).toNat = drainSlot s j :=
  Nat.mod_eq_of_lt ((drainSlot_lt pos j).trans (ringSize_lt .rx s))

/-- The drain is about to take D1, under the lock of a constructed ring. -/
structure Draining (s : State) : Prop where
  head : ∃ c, s.opOf s.issuer = some (.irqHandler (.i3 c)) ∧ c.phase = .d1
  lock : s.rxLock = .held s.issuer
  ready : s.rxReady = true
  size : 0 < ringSize .rx s

theorem Draining.reach (at1 : Draining s) : SlotReachable .rx (drainSlot s 0) s :=
  ⟨at1.lock, at1.ready, drainSlot_lt at1.size 0⟩

/-- D1 and D2. -/
theorem Draining.scan (at1 : Draining s) (n : Nat) :
    ∃ c, runDrain (n + 2) s = runDrain n (s.setOp (.irqHandler (.i3 (scanned c s)))) := by
  obtain ⟨c, op, phase⟩ := at1.head
  let read : RxCtx :=
    { c with phase := .d2, r := s.regs.rdt.extractLsb' 0 16, next := BitVec.ofNat 16 (drainSlot s 0) }
  have d1 : rxPhase c s = .next (s.setOp (.irqHandler (.i3 read))) := by
    rw [rxPhase, phase]
    rfl
  have d2 : rxPhase read (s.setOp (.irqHandler (.i3 read))) = .next (s.setOp (.irqHandler (.i3 (scanned c s)))) := by
    have slot := toNat_ofNat_drainSlot at1.size 0
    simp only [read, rxPhase, rxD2, rxGoto, slot, descStatus_setOp, setOp_setOp, scanned]
  refine ⟨c, ?_⟩
  rw [runDrain_phase op, d1, andThen_next, runDrain_setOp, d2, andThen_next]

theorem runDrain_dx (phase : c.phase = .dx) (n : Nat) (s : State) :
    runDrain (n + 1) (s.setOp (.irqHandler (.i3 c))) = .next (s.setOp (.irqHandler .i4)) := by
  rw [runDrain_setOp, rxPhase, phase]
  simp only [rxDx, andThen_next, setOp_setOp, runDrain_ended]

/-- Done clear in the slot after the tail: the drain ends (R222, R228). -/
theorem Draining.stops (at1 : Draining s) (clear : ddSet (descStatus .rx (drainSlot s 0) s) = false) (n : Nat) :
    runDrain (n + 3) s = .next (s.setOp (.irqHandler .i4)) := by
  obtain ⟨c, scan⟩ := at1.scan (n + 1)
  rw [scan, runDrain_dx (by simp [scanned, clear])]

theorem Draining.runDrain_d3 (at1 : Draining s) (done : ddSet (descStatus .rx (drainSlot s 0) s) = true) (n : Nat) :
    ∃ c, runDrain (n + 3) s =
      andThen (rxD3 (scanned c s) (s.setOp (.irqHandler (.i3 (scanned c s))))) (runDrain n) := by
  obtain ⟨c, scan⟩ := at1.scan (n + 1)
  refine ⟨c, scan.trans ?_⟩
  have d3 : (scanned c s).phase = .d3 := if_pos done
  rw [runDrain_setOp, rxPhase, d3]

/-- No replacement buffer: the drain ends, and the slot is as it was (R223, R228). -/
theorem Draining.fails (at1 : Draining s) (done : ddSet (descStatus .rx (drainSlot s 0) s) = true)
    (good : badGrant [] s = false) (answer : allocAnswer [] s = none) (n : Nat) :
    runDrain (n + 4) s = .next ((ungiven s).setOp (.irqHandler .i4)) := by
  obtain ⟨c, run⟩ := at1.runDrain_d3 done (n + 1)
  rw [run, rxD3_of_failure (s := s.setOp _) good answer, andThen_next, ungiven_setOp, setOp_setOp, runDrain_dx rfl]

theorem runDrain_d4 (phase : c.phase = .d4) :
    runDrain (n + 1) (s.setOp (.irqHandler (.i3 c))) = .next t ↔
      ∃ cur, s.slotAt .rx c.next.toNat = some cur ∧ (descLength .rx c.next.toNat s).toNat ≤ s.cfg.rxBufBytes ∧
        s.bufOf cur ≠ none ∧
        runDrain n ((appended cur (descLength .rx c.next.toNat s).toNat s).setOp (.irqHandler
          (.i3 { c with phase := .d5, len := descLength .rx c.next.toNat s, cur := some cur }))) = .next t := by
  rw [runDrain_setOp, rxPhase, phase, andThen_eq_next]
  simp only [rxD4_eq_next, appended_setOp, setOp_setOp, descLength_setOp, bufOf_setOp, setOp_cfg]
  constructor
  · rintro ⟨u, ⟨cur, slot, fits, live, rfl⟩, run⟩
    exact ⟨cur, slot, fits, live, run⟩
  · rintro ⟨cur, slot, fits, live, run⟩
    exact ⟨_, ⟨cur, slot, fits, live, rfl⟩, run⟩

theorem runDrain_d5 (phase : c.phase = .d5) (found : c.cur = some h) (live : s.bufOf h ≠ none) :
    runDrain (n + 1) (s.setOp (.irqHandler (.i3 c))) =
      runDrain n ((delivered h s).setOp (.irqHandler (.i3 { c with phase := .d6 }))) := by
  have delivers := (rxD5_eq_next (s := s.setOp (.irqHandler (.i3 c))) found).mpr ⟨live, rfl⟩
  rw [runDrain_setOp, rxPhase, phase]
  simp only [delivers, andThen_next, delivered_setOp, setOp_setOp]

theorem runDrain_d6 (phase : c.phase = .d6) (replacement : c.nb = some h) (live : s.bufOf h ≠ none)
    (reach : SlotReachable .rx c.next.toNat s) :
    runDrain (n + 1) (s.setOp (.irqHandler (.i3 c))) = .next t ↔
      inOtherSlot h .rx c.next.toNat s = false ∧
        runDrain n ((rearmed h c.next.toNat s).setOp (.irqHandler (.i3 { c with phase := .d7 }))) = .next t := by
  have kept : SlotReachable .rx c.next.toNat (s.setOp (.irqHandler (.i3 c))) := reach
  rw [runDrain_setOp, rxPhase, phase, andThen_eq_next]
  simp only [rxD6_eq_next (s := s.setOp _) replacement live, kept, true_and, rearmed_setOp, setOp_setOp]
  constructor
  · rintro ⟨u, ⟨only, rfl⟩, run⟩
    exact ⟨only, run⟩
  · rintro ⟨only, run⟩
    exact ⟨_, ⟨only, rfl⟩, run⟩

theorem runDrain_d7 (phase : c.phase = .d7) (reach : SlotReachable .rx c.next.toNat s) :
    runDrain (n + 1) (s.setOp (.irqHandler (.i3 c))) =
      runDrain n ((tailAt (indexWord c.next.toNat) s).setOp (.irqHandler (.i3 { c with phase := .d1 }))) := by
  obtain ⟨held, -, within⟩ := reach
  rw [runDrain_setOp, rxPhase, phase]
  simp only [rxD7_of_held (s := s.setOp _) held within, andThen_next, tailAt_setOp, setOp_setOp]

/-- D5 to D7. -/
theorem runDrain_d5_to_d7 {cur : Handle} (phase : c.phase = .d5) (found : c.cur = some cur) (replacement : c.nb = some h)
    (live : s.bufOf cur ≠ none) (fresh : s.bufOf h ≠ none) (reach : SlotReachable .rx c.next.toNat s) :
    runDrain (n + 3) (s.setOp (.irqHandler (.i3 c))) = .next t ↔
      inOtherSlot h .rx c.next.toNat s = false ∧
        runDrain n ((tailAt (indexWord c.next.toNat) (rearmed h c.next.toNat (delivered cur s))).setOp
          (.irqHandler (.i3 { c with phase := .d1 }))) = .next t := by
  have held : SlotReachable .rx c.next.toNat (rearmed h c.next.toNat (delivered cur s)) := by
    rw [rearmed_frame]; exact reach
  have rearms := runDrain_d6 (n := n + 1) (t := t) (s := delivered cur s) (c := { c with phase := .d6 }) rfl replacement
    (bufOf_delivered_ne_none fresh cur) reach
  have advances := runDrain_d7 (n := n) (c := { c with phase := .d7 }) rfl held
  rw [runDrain_d5 phase found live]
  exact rearms.trans (and_congr_right' (Eq.congr_left advances))

end DrainRuns

/-! RX_DRAIN run whole (R220). -/

theorem AtDrain.draining {s : State} (place : AtDrain s) (ready : s.rxReady = true) (pos : 0 < ringSize .rx s) :
    Draining s := ⟨⟨_, place.phase, rfl⟩, place.lock, ready, pos⟩

theorem exec_rxDrain {s : State} (place : AtDrain s) (ready : s.rxReady = true) :
    exec .rxDrain s = runDrain (rxPhases s) s := by
  have start : startDrain s = .next s := startDrain_eq_next.mpr ⟨place, ready, rfl⟩
  change andThen (startDrain s) _ = _
  rw [start, andThen_next]

/-- Settles O39: outside its place the drain does not start; D2 or D3 ends it otherwise. -/
theorem drainExits : Obligations.DrainExits := by
  unfold Obligations.DrainExits
  refine fun s => ⟨fun outside => ?refused, fun place ready pos => ⟨fun clear => ?empty, fun done rest input => ?failure⟩⟩
  case refused =>
    refine refuses_andThen (refuses_of_not_next (fun t start => ?_) (startDrain_ne_fault s))
    obtain ⟨place, ready, -⟩ := startDrain_eq_next.mp start
    rcases outside with unready | away
    · simp [ready] at unready
    · exact away place
  case empty =>
    refine ⟨_, ?_, rfl, opBecomes_setOp _ s⟩
    rw [exec_rxDrain place ready]
    exact (place.draining ready pos).stops clear (7 * ringSize .rx s)
  case failure =>
    obtain ⟨n, phases⟩ : ∃ n, rxPhases s = n + 4 := ⟨7 * ringSize .rx s - 1, by rw [rxPhases]; omega⟩
    have answer : allocAnswer [] s = none := by simp [allocAnswer, proposal, input]
    have fails := (place.draining ready pos).fails done (by simp [badGrant, input]) answer n
    rw [ungiven, nextProposal_cons input] at fails
    exact ⟨_, (exec_rxDrain place ready).trans ((congrArg (runDrain · s) phases).trans fails), rfl,
      opBecomes_setOp_of_same rfl rfl _⟩

/-! One round: the seven phases that consume one slot (R230). -/

/-- The handle in the slot after the tail. -/
def current (s : State) : Handle := (s.slotAt .rx (drainSlot s 0)).getD 0

/-- The byte count the device reported in the slot after the tail. -/
def reported (s : State) : Nat := (descLength .rx (drainSlot s 0) s).toNat

/-- The state after D5: a replacement in hand, the buffer of the slot upstream. -/
def handedUp (g : Grant) (s : State) : State :=
  delivered (current s) (appended (current s) (reported s) (given g s))

/-- The locals of a drain after a round. -/
def roundCtx (g : Grant) (s : State) : RxCtx :=
  { phase := .d1, r := s.regs.rdt.extractLsb' 0 16, next := BitVec.ofNat 16 (drainSlot s 0)
    st := descStatus .rx (drainSlot s 0) s, nb := some g.handle, len := descLength .rx (drainSlot s 0) s
    cur := some (current s) }

/-- The state after a round. -/
def consumed (g : Grant) (s : State) : State :=
  (tailAt (indexWord (drainSlot s 0)) (rearmed g.handle (drainSlot s 0) (handedUp g s))).setOp
    (.irqHandler (.i3 (roundCtx g s)))

/-- What a round asks for: the slot after the tail is completed and holds a live buffer with a length that fits, and
the allocator gives a buffer that is in no other slot. -/
structure Round (g : Grant) (s : State) : Prop where
  done : ddSet (descStatus .rx (drainSlot s 0) s) = true
  good : badGrant [] s = false
  answer : allocAnswer [] s = some g
  occupied : s.slotAt .rx (drainSlot s 0) = some (current s)
  fits : reported s ≤ s.cfg.rxBufBytes
  live : (given g s).bufOf (current s) ≠ none
  only : inOtherSlot g.handle .rx (drainSlot s 0) s = false

section Rounds

variable {g : Grant} {gs : List Grant} {h : Handle} {i j n : Nat} {s t : State}

theorem given_frame (g : Grant) (s : State) :
    given g s = { s with
      bufs := (given g s).bufs, allocs := s.allocs.tail, draws := s.nextProposal.draws
      out := s.out ++ [.alloc s.cfg.headroom (some g.handle)] } := by
  rw [given, nextProposal_frame]
  rfl

theorem bufOf_given_self (g : Grant) (s : State) : (given g s).bufOf g.handle = some (freshBuffer g s.issuer s) := by
  rw [given, bufOf_granted_self, nextProposal_frame]
  rfl

theorem otherBuffersSame_given (g : Grant) (s : State) : OtherBuffersSame g.handle s (given g s) := by
  intro f other
  rw [given, otherBuffersSame_granted _ g _ f other, nextProposal_frame]
  rfl

theorem bufOf_handedUp_ne_none (live : (given g s).bufOf h ≠ none) : (handedUp g s).bufOf h ≠ none :=
  bufOf_delivered_ne_none (bufOf_appended_ne_none live _ _) _

theorem handedUp_frame (g : Grant) (s : State) :
    handedUp g s = { s with
      bufs := (handedUp g s).bufs, allocs := s.allocs.tail, draws := s.nextProposal.draws
      out := s.out ++ [.alloc s.cfg.headroom (some g.handle), .append (current s) (reported s), .deliver (current s)] } := by
  rw [handedUp, given_frame]
  simp only [delivered, appended, State.emit, State.setBuf, List.append_assoc, List.cons_append, List.nil_append]

/-- A run goes on after the first round exactly where that round can be. -/
theorem Draining.round (at1 : Draining s) (done : ddSet (descStatus .rx (drainSlot s 0) s) = true)
    (good : badGrant [] s = false) (answer : allocAnswer [] s = some g) (n : Nat) :
    runDrain (n + 7) s = .next t ↔ Round g s ∧ runDrain n (consumed g s) = .next t := by
  obtain ⟨c, run⟩ := at1.runDrain_d3 done (n + 4)
  have slot := toNat_ofNat_drainSlot at1.size 0
  have allocated : (given g s).slotAt .rx (drainSlot s 0) = s.slotAt .rx (drainSlot s 0) := by rw [given_frame]; rfl
  have length : descLength .rx (drainSlot s 0) (given g s) = descLength .rx (drainSlot s 0) s := by
    rw [given_frame]; rfl
  have capacity : (given g s).cfg = s.cfg := by rw [given_frame]
  have reach : SlotReachable .rx (drainSlot s 0) (appended (current s) (reported s) (given g s)) := by
    rw [appended, given_frame]; exact at1.reach
  have elsewhere : inOtherSlot g.handle .rx (drainSlot s 0) (appended (current s) (reported s) (given g s)) =
      inOtherSlot g.handle .rx (drainSlot s 0) s := by rw [appended, given_frame]; rfl
  have fresh : (given g s).bufOf g.handle ≠ none := bufOf_given_self g s ▸ Option.some_ne_none _
  have later (live : (given g s).bufOf (current s) ≠ none) :=
    runDrain_d5_to_d7 (n := n) (t := t) (c := { roundCtx g s with phase := .d5 }) rfl rfl rfl
      (bufOf_appended_ne_none live (current s) (reported s)) (bufOf_appended_ne_none fresh (current s) (reported s))
      (slot.symm ▸ reach)
  simp only [roundCtx, slot, elsewhere] at later
  rw [run, rxD3_of_grant (s := s.setOp _) good answer, andThen_next, given_setOp, setOp_setOp, runDrain_d4 rfl]
  simp only [scanned, slot, allocated, length, capacity]
  constructor
  · rintro ⟨cur, occupied, fits, live, run⟩
    obtain rfl : current s = cur := by rw [current, occupied, Option.getD_some]
    obtain ⟨only, run⟩ := (later live).mp run
    exact ⟨⟨done, good, answer, occupied, fits, live, only⟩, run⟩
  · rintro ⟨⟨-, -, -, occupied, fits, live, only⟩, run⟩
    exact ⟨current s, occupied, fits, live, (later live).mpr ⟨only, run⟩⟩

/-! What a round leaves: the tail at its slot, the slot re-armed, the ring's geometry as it was. -/

theorem consumed_frame (g : Grant) (s : State) :
    consumed g s = { s with
      regs := { s.regs with rdt := indexWord (drainSlot s 0) }
      mem := (consumed g s).mem, rxBuf := s.rxBuf.set (drainSlot s 0) (some g.handle), bufs := (consumed g s).bufs
      allocs := s.allocs.tail, draws := s.nextProposal.draws, ops := (consumed g s).ops
      out := s.out ++ [.alloc s.cfg.headroom (some g.handle), .append (current s) (reported s), .deliver (current s)] } := by
  have work : consumed g s = (tailAt (indexWord (drainSlot s 0)) (rearmed g.handle (drainSlot s 0) (handedUp g s))).setOp
    (.irqHandler (.i3 (roundCtx g s))) := rfl
  rw [rearmed_frame, handedUp_frame] at work
  rw [work]
  rfl

@[simp] theorem consumed_regs (g : Grant) (s : State) :
    (consumed g s).regs = { s.regs with rdt := indexWord (drainSlot s 0) } := by rw [consumed_frame]

@[simp] theorem consumed_cfg (g : Grant) (s : State) : (consumed g s).cfg = s.cfg := by rw [consumed_frame]

@[simp] theorem consumed_issuer (g : Grant) (s : State) : (consumed g s).issuer = s.issuer := by rw [consumed_frame]

@[simp] theorem consumed_txBuf (g : Grant) (s : State) : (consumed g s).txBuf = s.txBuf := by rw [consumed_frame]

@[simp] theorem consumed_rxBuf (g : Grant) (s : State) :
    (consumed g s).rxBuf = s.rxBuf.set (drainSlot s 0) (some g.handle) := by rw [consumed_frame]

@[simp] theorem consumed_allocs (g : Grant) (s : State) : (consumed g s).allocs = s.allocs.tail := by
  rw [consumed_frame]

@[simp] theorem consumed_out (g : Grant) (s : State) :
    (consumed g s).out = s.out ++
      [.alloc s.cfg.headroom (some g.handle), .append (current s) (reported s), .deliver (current s)] := by
  rw [consumed_frame]

@[simp] theorem ringSize_consumed (r : Ring) (g : Grant) (s : State) : ringSize r (consumed g s) = ringSize r s := by
  cases r <;> simp only [ringSize, ringBytes, consumed_regs]

@[simp] theorem ringBase_consumed (r : Ring) (g : Grant) (s : State) : ringBase r (consumed g s) = ringBase r s := by
  cases r <;> simp only [ringBase, consumed_regs]

@[simp] theorem descAddr_consumed (r : Ring) (i off : Nat) (g : Grant) (s : State) :
    descAddr r i off (consumed g s) = descAddr r i off s := by
  simp only [descAddr, ringBase_consumed]

@[simp] theorem headIndex_consumed (r : Ring) (g : Grant) (s : State) : headIndex r (consumed g s) = headIndex r s := by
  cases r <;> simp only [headIndex, consumed_regs]

theorem tailIndex_consumed (pos : 0 < ringSize .rx s) (g : Grant) : tailIndex .rx (consumed g s) = drainSlot s 0 := by
  simp only [tailIndex, consumed_regs]
  exact indexField_indexWord ((drainSlot_lt pos 0).trans (ringSize_lt .rx s))

/-- The slots still to come are those after the first (R230). -/
theorem drainSlot_consumed (pos : 0 < ringSize .rx s) (g : Grant) (j : Nat) :
    drainSlot (consumed g s) j = drainSlot s (j + 1) := by
  rw [drainSlot, tailIndex_consumed pos, ringSize_consumed, drainSlot, drainSlot, Nat.add_assoc, Nat.mod_add_mod]
  congr 1
  omega

theorem opBecomes_consumed (g : Grant) (s : State) :
    OpBecomes (some (.irqHandler (.i3 (roundCtx g s)))) s (consumed g s) := by
  refine opBecomes_setOp_of_same (t := tailAt _ (rearmed g.handle (drainSlot s 0) (handedUp g s))) ?_ ?_ _
  all_goals
    rw [rearmed_frame, handedUp_frame]
    rfl

theorem Draining.consumed (at1 : Draining s) (g : Grant) : Draining (consumed g s) where
  head := ⟨roundCtx g s, by rw [consumed_issuer]; exact (opBecomes_consumed g s).left, rfl⟩
  lock := by rw [consumed_frame]; exact at1.lock
  ready := by rw [consumed_frame]; exact at1.ready
  size := by rw [ringSize_consumed]; exact at1.size

/-! The slots and their buffers. -/

/-- Fewer steps than the ring has slots lead to different slots. -/
theorem drainSlot_injective (hi : i < ringSize .rx s) (hj : j < ringSize .rx s) (same : drainSlot s i = drainSlot s j) :
    i = j := by
  have steps : (tailIndex .rx s + 1 + i) ≡ (tailIndex .rx s + 1 + j) [MOD ringSize .rx s] := same
  have := Nat.ModEq.add_left_cancel' _ steps
  rwa [Nat.ModEq, Nat.mod_eq_of_lt hi, Nat.mod_eq_of_lt hj] at this

theorem slotAt_consumed_self (occupied : s.slotAt .rx (drainSlot s 0) ≠ none) (g : Grant) :
    (consumed g s).slotAt .rx (drainSlot s 0) = some g.handle := by
  have within : drainSlot s 0 < s.rxBuf.length := by
    by_contra beyond
    exact occupied (List.getD_eq_default _ _ (Nat.not_lt.mp beyond))
  simp only [State.slotAt, State.slots, consumed_rxBuf, List.getD_eq_getElem?_getD, List.getElem?_set_self within,
    Option.getD_some]

theorem slotAt_consumed_other (other : i ≠ drainSlot s 0) (g : Grant) :
    (consumed g s).slotAt .rx i = s.slotAt .rx i := by
  simp only [State.slotAt, State.slots, consumed_rxBuf, List.getD_eq_getElem?_getD, List.getElem?_set_ne other.symm]

theorem bufOf_consumed (h : Handle) (g : Grant) (s : State) :
    (consumed g s).bufOf h = (rearmed g.handle (drainSlot s 0) (handedUp g s)).bufOf h := rfl

theorem bufOf_handedUp_other (given : h ≠ g.handle) (old : h ≠ current s) : (handedUp g s).bufOf h = s.bufOf h := by
  refine (bufOf_setBuf_other old _ _).trans ((bufOf_setBuf_other old _ _).trans ?_)
  exact otherBuffersSame_given g s h given

theorem bufOf_consumed_other (given : h ≠ g.handle) (old : h ≠ current s) : (consumed g s).bufOf h = s.bufOf h := by
  rw [bufOf_consumed, otherBuffersSame_rearmed _ _ _ h given, bufOf_handedUp_other given old]

theorem bufOf_given_ne_none (live : s.bufOf h ≠ none) (g : Grant) : (given g s).bufOf h ≠ none := by
  by_cases same : h = g.handle
  · rw [same, bufOf_given_self]
    exact Option.some_ne_none _
  · rwa [otherBuffersSame_given g s h same]

theorem bufOf_consumed_ne_none (live : s.bufOf h ≠ none) (g : Grant) : (consumed g s).bufOf h ≠ none := by
  rw [bufOf_consumed]
  by_cases same : h = g.handle
  · rw [same, bufOf_rearmed_self]
    exact Option.some_ne_none _
  · rw [otherBuffersSame_rearmed _ _ _ h same]
    exact bufOf_handedUp_ne_none (bufOf_given_ne_none live g)

theorem bufOf_handedUp_grant (other : g.handle ≠ current s) :
    (handedUp g s).bufOf g.handle = some (freshBuffer g s.issuer s) :=
  (bufOf_setBuf_other other _ _).trans ((bufOf_setBuf_other other _ _).trans (bufOf_given_self g s))

theorem bufOf_consumed_grant (other : g.handle ≠ current s) :
    (consumed g s).bufOf g.handle =
      some { addr := g.addr, len := 0, area := s.cfg.rxBufBytes, holder := .ring .rx (drainSlot s 0) } := by
  rw [bufOf_consumed, bufOf_rearmed_self, bufferAt_of_live (bufOf_handedUp_grant other)]
  rfl

theorem holderOf_consumed_current (other : g.handle ≠ current s) : (consumed g s).holderOf (current s) = .upstream := by
  have up : (handedUp g s).bufOf (current s) = some _ := bufOf_setBuf_self (current s) _ _
  rw [← otherBuffersSame_rearmed g.handle (drainSlot s 0) _ _ other.symm] at up
  exact holderOf_of_bufOf up

/-! The descriptors. -/

theorem byteAt_consumed {a : Addr} (payload : outside (descAddr .rx (drainSlot s 0) 0 s) 8 a)
    (status : a ≠ descAddr .rx (drainSlot s 0) 12 s) (g : Grant) : (consumed g s).byteAt a = s.byteAt a := by
  have regs : (handedUp g s).regs = s.regs := by rw [handedUp_frame]
  have bytes : (handedUp g s).byteAt a = s.byteAt a := by rw [handedUp_frame]; rfl
  rw [← descAddr_congr regs] at payload status
  exact (byteAt_rearmed payload status).trans bytes

theorem descStatus_consumed_self (g : Grant) (s : State) : descStatus .rx (drainSlot s 0) (consumed g s) = 0 :=
  descStatus_rearmed (s := handedUp g s)

theorem descPayload_consumed_self (other : g.handle ≠ current s) :
    descPayload .rx (drainSlot s 0) (consumed g s) = g.addr := by
  refine (descPayload_rearmed (s := handedUp g s)).trans ?_
  rw [bufferAt_of_live (bufOf_handedUp_grant other)]
  rfl

/-- From `s` to `t` the descriptor of receive slot `i` stays where it is and as it is. -/
structure DescSame (i : Nat) (s t : State) : Prop where
  place : ringBase .rx t = ringBase .rx s
  bytes : ∀ o < 16, t.byteAt (descAddr .rx i o s) = s.byteAt (descAddr .rx i o s)

theorem DescSame.refl (i : Nat) (s : State) : DescSame i s s := ⟨rfl, fun _ _ => rfl⟩

theorem DescSame.descAddr (same : DescSame i s t) (o : Nat) : descAddr .rx i o t = descAddr .rx i o s := by
  rw [Machine.descAddr, same.place, Machine.descAddr]

theorem DescSame.trans {u : State} (first : DescSame i s t) (later : DescSame i t u) : DescSame i s u where
  place := later.place.trans first.place
  bytes o ho := by
    have bytes := later.bytes o ho
    rw [first.descAddr] at bytes
    exact bytes.trans (first.bytes o ho)

theorem DescSame.status (same : DescSame i s t) : descStatus .rx i t = descStatus .rx i s := by
  rw [descStatus, same.descAddr]
  exact same.bytes offStatus (by decide)

/-- A field of the descriptor reads as before. -/
theorem DescSame.load {o m : Nat} (same : DescSame i s t) (within : o + m ≤ 16) :
    t.load (Machine.descAddr .rx i o t) m = s.load (Machine.descAddr .rx i o s) m := by
  rw [same.descAddr, State.load, State.load]
  refine congrArg leNat (Memory.readBytes_congr fun k hk => ?_)
  rw [descAddr_add]
  exact same.bytes (o + k) (by omega)

theorem DescSame.length (same : DescSame i s t) : descLength .rx i t = descLength .rx i s := by
  rw [descLength, same.load (by decide), descLength]

theorem DescSame.payload (same : DescSame i s t) : descPayload .rx i t = descPayload .rx i s := by
  rw [descPayload, same.load (by decide), descPayload]

/-- Bytes of different descriptors lie at different addresses (R76). -/
theorem descAddr_ne {k o : Nat} (hi : i < 2 ^ 16) (hj : j < 2 ^ 16) (other : i ≠ j) (ho : o < 16) (hk : k < 16) (r : Ring)
    (s : State) : descAddr r i o s ≠ descAddr r j k s := by
  intro same
  have offsets := add_ofNat_injective (by simp only [Config.descBytes]; omega) (by simp only [Config.descBytes]; omega) same
  simp only [Config.descBytes] at offsets
  omega

theorem descSame_consumed (pos : 0 < ringSize .rx s) (within : i < ringSize .rx s) (other : i ≠ drainSlot s 0) (g : Grant) :
    DescSame i s (consumed g s) := by
  have size := ringSize_lt .rx s
  have own := drainSlot_lt pos 0
  refine ⟨ringBase_consumed .rx g s, fun o ho => byteAt_consumed (fun k hk => ?_) ?_ g⟩
  · rw [descAddr_add]
    exact descAddr_ne (by omega) (by omega) other ho (by omega) .rx s
  · exact descAddr_ne (by omega) (by omega) other ho (by omega) .rx s

end Rounds

/-! Rounds one after another (R229 to R231). -/

/-- The state after one round per grant. -/
def drained : List Grant → State → State
  | [], s => s
  | g :: gs, s => drained gs (consumed g s)

/-- The rounds can be, one after another. -/
inductive Rounds : List Grant → State → Prop
  | nil (s : State) : Rounds [] s
  | cons {g : Grant} {gs : List Grant} {s : State} (first : Round g s) (later : Rounds gs (consumed g s)) :
      Rounds (g :: gs) s

section Drained

variable {g : Grant} {gs : List Grant} {i j m n : Nat} {s t : State}

theorem Draining.drained (at1 : Draining s) (gs : List Grant) : Draining (drained gs s) := by
  induction gs generalizing s with
  | nil => exact at1
  | cons g gs ih => exact ih (at1.consumed g)

/-- A run takes the rounds that can be. -/
theorem Draining.rounds (at1 : Draining s) (can : Rounds gs s) (n : Nat) :
    runDrain (n + 7 * gs.length) s = .next t ↔ runDrain n (Machine.drained gs s) = .next t := by
  induction can with
  | nil s => exact Iff.rfl
  | @cons g gs s first later ih =>
    have step := at1.round (t := t) first.done first.good first.answer (n + 7 * gs.length)
    exact (step.trans (and_iff_right first)).trans (ih (at1.consumed g))

@[simp] theorem ringSize_drained (gs : List Grant) (s : State) : ringSize .rx (drained gs s) = ringSize .rx s := by
  induction gs generalizing s with
  | nil => rfl
  | cons g gs ih => rw [drained, ih, ringSize_consumed]

theorem issuer_drained (gs : List Grant) (s : State) : (drained gs s).issuer = s.issuer := by
  induction gs generalizing s with
  | nil => rfl
  | cons g gs ih => rw [drained, ih, consumed_issuer]

theorem tailIndex_drained (pos : 0 < ringSize .rx s) (tail : tailIndex .rx s < ringSize .rx s) (gs : List Grant) :
    tailIndex .rx (drained gs s) = (tailIndex .rx s + gs.length) % ringSize .rx s := by
  induction gs generalizing s with
  | nil => exact (Nat.mod_eq_of_lt tail).symm
  | cons g gs ih =>
    have moved := tailIndex_consumed pos g
    rw [drained, ih (by rwa [ringSize_consumed]) (by rw [moved, ringSize_consumed]; exact drainSlot_lt pos 0), moved,
      ringSize_consumed, drainSlot, Nat.mod_add_mod, List.length_cons]
    congr 1
    omega

/-! The slots still to come in a round are other slots. -/

theorem drainSlot_succ_ne (short : j + 1 < ringSize .rx s) : drainSlot s (j + 1) ≠ drainSlot s 0 := fun same =>
  absurd (drainSlot_injective short (by omega) same) (Nat.succ_ne_zero j)

theorem slotAt_consumed_later (pos : 0 < ringSize .rx s) (short : j + 1 < ringSize .rx s) (g : Grant) :
    (consumed g s).slotAt .rx (drainSlot (consumed g s) j) = s.slotAt .rx (drainSlot s (j + 1)) := by
  rw [drainSlot_consumed pos, slotAt_consumed_other (drainSlot_succ_ne short)]

theorem descSame_consumed_later (pos : 0 < ringSize .rx s) (short : j + 1 < ringSize .rx s) (g : Grant) :
    DescSame (drainSlot s (j + 1)) s (consumed g s) :=
  descSame_consumed pos (drainSlot_lt pos _) (drainSlot_succ_ne short) g

theorem drainOutputs_consumed (pos : 0 < ringSize .rx s) (short : j + gs.length < ringSize .rx s) (g : Grant) :
    drainOutputs (consumed g s) j gs = drainOutputs s (j + 1) gs := by
  induction gs generalizing j with
  | nil => rfl
  | cons f gs ih =>
    rw [List.length_cons] at short
    rw [drainOutputs, drainOutputs, ih (by omega), slotAt_consumed_later pos (by omega), drainSlot_consumed pos,
      (descSame_consumed_later pos (by omega) g).length, consumed_cfg]

theorem drained_out (pos : 0 < ringSize .rx s) (few : gs.length ≤ ringSize .rx s) :
    (drained gs s).out = s.out ++ drainOutputs s 0 gs := by
  induction gs generalizing s with
  | nil => exact (List.append_nil _).symm
  | cons g gs ih =>
    rw [List.length_cons] at few
    rw [drained, ih (by rwa [ringSize_consumed]) (by rw [ringSize_consumed]; omega), consumed_out,
      drainOutputs_consumed pos (by omega), List.append_assoc]
    rfl

theorem Rounds.occupied (can : Rounds gs s) (pos : 0 < ringSize .rx s) (few : gs.length ≤ ringSize .rx s)
    (hj : j < gs.length) : s.slotAt .rx (drainSlot s j) ≠ none := by
  induction can generalizing j with
  | nil s => exact absurd hj (Nat.not_lt_zero j)
  | @cons g gs s first later ih =>
    rw [List.length_cons] at few hj
    cases j with
    | zero => rw [first.occupied]; exact Option.some_ne_none _
    | succ j =>
      have kept := ih (by rwa [ringSize_consumed]) (by rw [ringSize_consumed]; omega) (j := j) (by omega)
      rwa [slotAt_consumed_later pos (by omega)] at kept

/-! A drain run alone ends (R229). -/

/-- Done is clear in one of the `m + 1` slots after the tail, or `m` rounds clear it in every slot. -/
def ClearWithin (m : Nat) (s : State) : Prop :=
  m = ringSize .rx s ∨ ∃ j ≤ m, j < ringSize .rx s ∧ ddSet (descStatus .rx (drainSlot s j) s) = false

theorem ClearWithin.consumed (pos : 0 < ringSize .rx s) (clear : ClearWithin (m + 1) s)
    (done : ddSet (descStatus .rx (drainSlot s 0) s) = true) (g : Grant) : ClearWithin m (consumed g s) := by
  rcases clear with all | ⟨j, hj, within, clear⟩
  · have first : drainSlot (Machine.consumed g s) m = drainSlot s 0 := by
      rw [drainSlot_consumed pos, all, drainSlot, Nat.add_mod_right, drainSlot, Nat.add_zero]
    exact .inr ⟨m, le_rfl, by rw [ringSize_consumed]; omega, by rw [first, descStatus_consumed_self]; rfl⟩
  · cases j with
    | zero => simp [done] at clear
    | succ j =>
      refine .inr ⟨j, by omega, by rw [ringSize_consumed]; omega, ?_⟩
      rw [drainSlot_consumed pos, (descSame_consumed_later pos within g).status, clear]

/-- How a drain ends: nothing more is completed, or there is no replacement buffer (R222, R223). -/
def Ends (s t : State) : Prop :=
  (ddSet (descStatus .rx (drainSlot s 0) s) = false ∧ t = s.setOp (.irqHandler .i4)) ∨
    t = (ungiven s).setOp (.irqHandler .i4)

theorem Draining.good_of_run (at1 : Draining s) (done : ddSet (descStatus .rx (drainSlot s 0) s) = true)
    (run : runDrain (n + 3) s = .next t) : badGrant [] s = false := by
  obtain ⟨c, d3⟩ := at1.runDrain_d3 done n
  obtain ⟨u, answered, -⟩ := andThen_eq_next.mp (d3 ▸ run)
  exact (allocThen_eq_next.mp answered).left

theorem Draining.ends_of_clear (at1 : Draining s) (clear : ddSet (descStatus .rx (drainSlot s 0) s) = false)
    (phases : 3 ≤ n) (run : runDrain n s = .next t) : Ends s t := by
  obtain ⟨n, rfl⟩ := Nat.exists_eq_add_of_le' phases
  rw [at1.stops clear n] at run
  cases run
  exact .inl ⟨clear, rfl⟩

/-- A run long enough takes rounds and ends. -/
theorem Draining.ends (at1 : Draining s) (clear : ClearWithin m s) (phases : 7 * m + 3 ≤ n)
    (run : runDrain n s = .next t) : ∃ gs, gs.length ≤ m ∧ Rounds gs s ∧ Ends (Machine.drained gs s) t := by
  induction m generalizing s n with
  | zero =>
    rcases clear with empty | ⟨j, hj, -, clear⟩
    · exact absurd empty.symm at1.size.ne'
    · obtain rfl : j = 0 := Nat.le_zero.mp hj
      exact ⟨[], le_rfl, .nil s, at1.ends_of_clear clear (by omega) run⟩
  | succ m ih =>
    cases done : ddSet (descStatus .rx (drainSlot s 0) s) with
    | false => exact ⟨[], Nat.zero_le _, .nil s, at1.ends_of_clear done (by omega) run⟩
    | true =>
      obtain ⟨n, rfl⟩ := Nat.exists_eq_add_of_le' (show 7 ≤ n by omega)
      have good := at1.good_of_run done run
      cases answer : allocAnswer [] s with
      | none =>
        rw [at1.fails done good answer (n + 3)] at run
        cases run
        exact ⟨[], Nat.zero_le _, .nil s, .inr rfl⟩
      | some g =>
        obtain ⟨first, run⟩ := (at1.round done good answer n).mp run
        obtain ⟨gs, few, later, ends⟩ := ih (at1.consumed g) (clear.consumed at1.size done g) (by omega) run
        exact ⟨g :: gs, Nat.succ_le_succ few, .cons first later, ends⟩

theorem Draining.run_ends (at1 : Draining s) (run : runDrain (rxPhases s) s = .next t) :
    ∃ gs, gs.length ≤ ringSize .rx s ∧ Rounds gs s ∧ Ends (Machine.drained gs s) t :=
  at1.ends (.inl rfl) le_rfl run

theorem exec_rxDrain_ends (pos : 0 < ringSize .rx s) (run : exec .rxDrain s = .next t) :
    Draining s ∧ ∃ gs, gs.length ≤ ringSize .rx s ∧ Rounds gs s ∧ Ends (drained gs s) t := by
  obtain ⟨u, start, -⟩ := andThen_eq_next.mp (show andThen (startDrain s) (runDrain (rxPhases s)) = .next t from run)
  obtain ⟨place, ready, -⟩ := startDrain_eq_next.mp start
  have at1 := place.draining ready pos
  exact ⟨at1, at1.run_ends (exec_rxDrain place ready ▸ run)⟩

theorem deliveries_append (l l' : List Output) : deliveries (l ++ l') = deliveries l ++ deliveries l' := by
  induction l with
  | nil => rfl
  | cons o l ih => cases o <;> simp only [List.cons_append, deliveries, ih]

/-- The handles a drain hands up are those of its slots (R231). -/
theorem deliveries_drainOutputs (occupied : ∀ k < gs.length, s.slotAt .rx (drainSlot s (j + k)) ≠ none) :
    (deliveries (drainOutputs s j gs)).map some =
      (List.range gs.length).map fun k => s.slotAt .rx (drainSlot s (j + k)) := by
  induction gs generalizing j with
  | nil => rfl
  | cons g gs ih =>
    have shift (k : Nat) : j + 1 + k = j + (k + 1) := by omega
    have first : some ((s.slotAt .rx (drainSlot s j)).getD 0) = s.slotAt .rx (drainSlot s j) := by
      obtain ⟨h, slot⟩ := Option.ne_none_iff_exists'.mp (occupied 0 (Nat.succ_pos _))
      rw [Nat.add_zero] at slot
      rw [slot, Option.getD_some]
    have later := ih (j := j + 1) fun k hk => by rw [shift]; exact occupied (k + 1) (Nat.succ_lt_succ hk)
    simp only [drainOutputs, deliveries, List.map_cons, later, first, List.length_cons, List.range_succ_eq_map,
      List.map_map, Function.comp_def, shift, Nat.add_zero, Nat.succ_eq_add_one]

theorem ungiven_out (s : State) : (ungiven s).out = s.out ++ [.alloc s.cfg.headroom none] := by
  rw [ungiven, emit_out, nextProposal_out]

theorem Ends.out (ends : Ends s t) : ∃ l, t.out = s.out ++ l ∧ deliveries l = [] := by
  rcases ends with ⟨-, rfl⟩ | rfl
  · exact ⟨[], (List.append_nil _).symm, rfl⟩
  · exact ⟨[.alloc s.cfg.headroom none], by rw [setOp_out, ungiven_out], rfl⟩

/-- The handler goes on at I4 (R228). -/
theorem Ends.ended (ends : Ends s t) : t.opOf s.issuer = some (.irqHandler .i4) := by
  rcases ends with ⟨-, rfl⟩ | rfl
  · exact opOf_setOp_self _ s
  · have becomes : OpBecomes _ s ((ungiven s).setOp (.irqHandler .i4)) :=
      opBecomes_setOp_of_same (nextProposal_ops s) (nextProposal_issuer s) _
    exact becomes.left

theorem Ends.regs (ends : Ends s t) : t.regs = s.regs := by
  rcases ends with ⟨-, rfl⟩ | rfl
  · rfl
  · exact nextProposal_regs s

end Drained

/-- Settles O42: the run is rounds, and each hands up the buffer of its slot. -/
theorem drainDeliversInRingOrder : Obligations.DrainDeliversInRingOrder := by
  unfold Obligations.DrainDeliversInRingOrder
  intro s t ready legal run
  obtain ⟨size, -, tail⟩ := legal.ring ready
  have pos : 0 < ringSize .rx s := by omega
  obtain ⟨-, gs, few, can, ends⟩ := exec_rxDrain_ends pos run
  refine ⟨gs.length, few, ?tail, ?order⟩
  case tail => rw [tailIndex_congr ends.regs, tailIndex_drained pos tail]
  case order =>
    obtain ⟨l, out, quiet⟩ := ends.out
    have handed := deliveries_drainOutputs (j := 0) fun k hk => by rw [Nat.zero_add]; exact can.occupied pos few hk
    rw [newOutputs, out, drained_out pos few, List.append_assoc, List.drop_left, deliveries_append, quiet, List.append_nil,
      handed]
    simp only [Nat.zero_add, drainSlot]

/-! The window of the hardware and the reserved slot (R284, R288). -/

section Window

variable {g : Grant} {gs : List Grant} {i : Nat} {s t : State}

/-- How many slots the window has. -/
def windowSize (s : State) : Nat := ringDist (headIndex .rx s) (tailIndex .rx s) (ringSize .rx s)

/-- The window and the reserved slot are the slots from the head to the tail. -/
theorem inWindow_or_tail_iff (head : headIndex .rx s < ringSize .rx s) (tail : tailIndex .rx s < ringSize .rx s) :
    (inWindow i s || i == tailIndex .rx s) = true ↔
      ∃ k < windowSize s + 1, (headIndex .rx s + k) % ringSize .rx s = i := by
  have last : (headIndex .rx s + windowSize s) % ringSize .rx s = tailIndex .rx s := add_ringDist_mod head tail
  have window : inWindow i s = true ↔ ∃ k < windowSize s, (headIndex .rx s + k) % ringSize .rx s = i := by
    simp only [inWindow, windowSize, List.any_eq_true, List.mem_range, beq_iff_eq]
  rw [Bool.or_eq_true, beq_iff_eq, window, exists_lt_add_slot last.symm]
  simp only [Nat.lt_one_iff, exists_eq_left, Nat.add_zero, Nat.mod_eq_of_lt tail, eq_comm]

/-- The slot after the tail is as many steps from the head as the window and the reserved slot have slots. -/
theorem head_add_windowSize_succ (head : headIndex .rx s < ringSize .rx s) (tail : tailIndex .rx s < ringSize .rx s) :
    (headIndex .rx s + (windowSize s + 1)) % ringSize .rx s = drainSlot s 0 := by
  have last : (headIndex .rx s + windowSize s) % ringSize .rx s = tailIndex .rx s := add_ringDist_mod head tail
  change _ = (tailIndex .rx s + 1) % ringSize .rx s
  rw [← last, Nat.mod_add_mod, Nat.add_assoc]

theorem RxExact.clear_iff (exactly : RxExact s) (head : headIndex .rx s < ringSize .rx s)
    (tail : tailIndex .rx s < ringSize .rx s) (within : i < ringSize .rx s) :
    ddSet (descStatus .rx i s) = false ↔ ∃ k < windowSize s + 1, (headIndex .rx s + k) % ringSize .rx s = i := by
  rw [exactly i within, Bool.not_eq_false', inWindow_or_tail_iff head tail]

/-- The slot after the tail is not completed only where it is the head's. -/
theorem RxExact.clear_next_iff (exactly : RxExact s) (head : headIndex .rx s < ringSize .rx s)
    (tail : tailIndex .rx s < ringSize .rx s) :
    ddSet (descStatus .rx (drainSlot s 0) s) = false ↔ drainSlot s 0 = headIndex .rx s := by
  have pos : 0 < ringSize .rx s := by omega
  have short : windowSize s < ringSize .rx s := ringDist_lt pos
  have next := head_add_windowSize_succ head tail
  rw [exactly.clear_iff head tail (drainSlot_lt pos 0)]
  constructor
  · rintro ⟨k, hk, same⟩
    by_cases full : windowSize s + 1 = ringSize .rx s
    · rw [← next, full, Nat.add_mod_right, Nat.mod_eq_of_lt head]
    · have steps := congrArg (ringDist (headIndex .rx s) · (ringSize .rx s)) (same.trans next.symm)
      simp only [ringDist_add_mod head (show k < ringSize .rx s by omega),
        ringDist_add_mod head (show windowSize s + 1 < ringSize .rx s by omega)] at steps
      omega
  · exact fun same => ⟨0, Nat.succ_pos _, by rw [same, Nat.add_zero, Nat.mod_eq_of_lt head]⟩

/-- A round moves the window's end by one (R288). -/
theorem windowSize_consumed (head : headIndex .rx s < ringSize .rx s) (tail : tailIndex .rx s < ringSize .rx s)
    (apart : drainSlot s 0 ≠ headIndex .rx s) (g : Grant) : windowSize (consumed g s) = windowSize s + 1 := by
  have pos : 0 < ringSize .rx s := by omega
  have next := head_add_windowSize_succ head tail
  have short : windowSize s < ringSize .rx s := ringDist_lt pos
  have room : windowSize s + 1 ≠ ringSize .rx s := fun full =>
    apart (by rw [← next, full, Nat.add_mod_right, Nat.mod_eq_of_lt head])
  rw [windowSize, tailIndex_consumed pos, headIndex_consumed, ringSize_consumed, ← next]
  exact ringDist_add_mod head (by omega)

/-- A round keeps Done clear in exactly the slots of the window and the reserved slot (R288). -/
theorem RxExact.consumed (exactly : RxExact s) (head : headIndex .rx s < ringSize .rx s)
    (tail : tailIndex .rx s < ringSize .rx s) (done : ddSet (descStatus .rx (drainSlot s 0) s) = true) (g : Grant) :
    RxExact (consumed g s) := by
  have pos : 0 < ringSize .rx s := by omega
  have apart : drainSlot s 0 ≠ headIndex .rx s := fun same => by
    simp [(exactly.clear_next_iff head tail).mpr same] at done
  intro i within
  rw [ringSize_consumed] at within
  by_cases own : i = drainSlot s 0
  · rw [own, descStatus_consumed_self, tailIndex_consumed pos, beq_self_eq_true, Bool.or_true]
    rfl
  · have tail' : tailIndex .rx (Machine.consumed g s) < ringSize .rx (Machine.consumed g s) := by
      rw [tailIndex_consumed pos, ringSize_consumed]; exact drainSlot_lt pos 0
    have head' : headIndex .rx (Machine.consumed g s) < ringSize .rx (Machine.consumed g s) := by
      rwa [headIndex_consumed, ringSize_consumed]
    rw [(descSame_consumed pos within own g).status, exactly i within]
    refine congrArg not (Bool.eq_iff_iff.mpr ?_)
    rw [inWindow_or_tail_iff head tail, inWindow_or_tail_iff head' tail', windowSize_consumed head tail apart,
      headIndex_consumed, ringSize_consumed, Nat.exists_lt_succ_right (n := windowSize s + 1),
      head_add_windowSize_succ head tail]
    exact (or_iff_left (Ne.symm own)).symm

theorem headIndex_drained (gs : List Grant) (s : State) : headIndex .rx (drained gs s) = headIndex .rx s := by
  induction gs generalizing s with
  | nil => rfl
  | cons g gs ih => rw [drained, ih, headIndex_consumed]

theorem Rounds.rxExact (can : Rounds gs s) (exactly : RxExact s) (head : headIndex .rx s < ringSize .rx s)
    (tail : tailIndex .rx s < ringSize .rx s) : RxExact (drained gs s) := by
  induction can with
  | nil s => exact exactly
  | @cons g gs s first later ih =>
    have pos : 0 < ringSize .rx s := by omega
    refine ih (exactly.consumed head tail first.done g) (by rwa [headIndex_consumed, ringSize_consumed]) ?_
    rw [tailIndex_consumed pos, ringSize_consumed]
    exact drainSlot_lt pos 0

end Window

/-- Settles O41: the run is rounds; where it ends without a failed ALLOC, Done is clear in the slot after the tail, which
is then the head's. -/
theorem drainConsumesEveryCompletedSlot : Obligations.DrainConsumesEveryCompletedSlot := by
  unfold Obligations.DrainConsumesEveryCompletedSlot
  intro s t ready legal exactly run
  obtain ⟨size, head, tail⟩ := legal.ring ready
  have pos : 0 < ringSize .rx s := by omega
  obtain ⟨-, gs, few, can, ends⟩ := exec_rxDrain_ends pos run
  have issuer : (drained gs s).issuer = s.issuer := issuer_drained gs s
  refine ⟨?ended, fun answered => ?empty⟩
  case ended => rw [← issuer, ends.ended]
  case empty =>
    have stays := can.rxExact exactly head tail
    have head' : headIndex .rx (drained gs s) < ringSize .rx (drained gs s) := by
      rwa [headIndex_drained, ringSize_drained]
    have tail' : tailIndex .rx (drained gs s) < ringSize .rx (drained gs s) := by
      rw [tailIndex_drained pos tail, ringSize_drained]; exact Nat.mod_lt _ pos
    rcases ends with ⟨clear, rfl⟩ | rfl
    · exact (stays.clear_next_iff head' tail').mp clear
    · have unanswered : newOutputs s ((ungiven (drained gs s)).setOp (.irqHandler .i4)) =
          drainOutputs s 0 gs ++ [.alloc (drained gs s).cfg.headroom none] := by
        rw [newOutputs, setOp_out, ungiven_out, drained_out pos few, List.append_assoc, List.drop_left]
      simp [unanswered, allocFailed] at answered

/-! A drain with grants to come (R186, R220 to R228). -/

/-- Grants stay good in a state that has the same of their handles live and no further region in use. -/
theorem grantsOk_mono {p : Config.Params} {live live' : List (Nat × Buffer)} {taken taken' : List Region}
    {gs : List Grant} (same : ∀ f ∈ gs, Assoc.lookup f.handle.toNat live' = Assoc.lookup f.handle.toNat live)
    (sub : taken' ⊆ taken) (ok : grantsOk p live taken gs = true) : grantsOk p live' taken' gs = true := by
  induction gs generalizing taken taken' with
  | nil => rfl
  | cons g gs ih =>
    obtain ⟨named, pool, distinct, fits, later⟩ := grantsOk_cons.mp ok
    obtain ⟨first, others⟩ := List.forall_mem_cons.mp same
    exact grantsOk_cons.mpr ⟨named, first.trans pool, distinct, placeable_of_subset sub fits,
      ih others (List.cons_subset_cons _ sub) later⟩

theorem Assoc.mem_of_lookup {α : Type} {k : Nat} {v : α} {l : List (Nat × α)} (h : Assoc.lookup k l = some v) :
    (k, v) ∈ l := by
  induction l with
  | nil => cases h
  | cons e l ih =>
    obtain ⟨j, u⟩ := e
    simp only [Assoc.lookup] at h
    split at h
    · next here =>
      cases h
      rw [here]
      exact List.mem_cons_self
    · exact List.mem_cons_of_mem _ (ih h)

/-- The regions in use are a matter of the buffers, the flags and the geometry. -/
theorem liveRegions_congr {s t : State} (bufs : t.bufs = s.bufs) (ready : t.txReady = s.txReady ∧ t.rxReady = s.rxReady)
    (place : ∀ r, ringRegion r t = ringRegion r s) : liveRegions t = liveRegions s := by
  rw [liveRegions, bufs, ready.left, ready.right, place, place, liveRegions]

/-- A buffer listed anew in its own area adds no region. -/
theorem liveRegions_relisted {h : Handle} {b b' : Buffer} {s : State} (live : s.bufOf h = some b)
    (addr : b'.addr = b.addr) (area : b'.area = b.area) : liveRegions (s.setBuf h b') ⊆ liveRegions s := by
  refine List.Subset.trans (liveRegions_setBuf_subset h b' s) (List.cons_subset.mpr ⟨?_, List.Subset.refl _⟩)
  rw [addr, area]
  exact List.mem_append_right _ (List.mem_map.mpr ⟨_, Assoc.mem_of_lookup live, rfl⟩)

/-- The handles to be granted are in the pool (R186). -/
theorem grantsOk_absent {p : Config.Params} {live : List (Nat × Buffer)} {taken : List Region} {gs : List Grant}
    (ok : grantsOk p live taken gs = true) : ∀ f ∈ gs, Assoc.lookup f.handle.toNat live = none := by
  induction gs generalizing taken with
  | nil => exact fun f hf => nomatch hf
  | cons g gs ih =>
    obtain ⟨-, pool, -, -, later⟩ := grantsOk_cons.mp ok
    exact List.forall_mem_cons.mpr ⟨pool, ih later⟩

/-- A handle that stands nowhere stands nowhere else. -/
theorem namedBy_skip {h : Handle} {l : List (Option Handle)} {j : Nat} (nowhere : namedBy h none j l = false)
    (skip : Option Nat) : namedBy h skip j l = false := by
  induction l generalizing j with
  | nil => rfl
  | cons x l ih =>
    simp only [namedBy, Bool.or_eq_false_iff] at nowhere ⊢
    obtain ⟨here, later⟩ := nowhere
    have apart : (x == some h) = false := by simpa using here
    exact ⟨by rw [apart, Bool.false_and], ih later⟩

theorem namedBy_set {h : Handle} {x : Option Handle} {l : List (Option Handle)} {j : Nat} (i : Nat)
    (nowhere : namedBy h none j l = false) (other : x ≠ some h) : namedBy h none j (l.set i x) = false := by
  induction l generalizing i j with
  | nil => rfl
  | cons y l ih =>
    simp only [namedBy, Bool.or_eq_false_iff] at nowhere
    obtain ⟨here, later⟩ := nowhere
    cases i with
    | zero => simp [namedBy, later, other]
    | succ i => simp only [List.set_cons_succ, namedBy, here, ih i later, Bool.or_self]

/-- The slots to consume, the grants to come, and the slot that ends the drain, as `DrainReady` has them, for any
number of grants (R220 to R226). -/
structure Supplied (gs : List Grant) (rest : List (Option Grant)) (s : State) : Prop where
  few : gs.length < ringSize .rx s
  input : s.allocs = gs.map some ++ rest
  grants : grantsOk s.cfg s.bufs (liveRegions s) gs = true
  fresh : ∀ g ∈ gs, namedBy g.handle none 0 s.txBuf = false ∧ namedBy g.handle none 0 s.rxBuf = false
  completed : ∀ j, j < gs.length →
    ddSet (descStatus .rx (drainSlot s j) s) = true ∧ (descLength .rx (drainSlot s j) s).toNat ≤ s.cfg.rxBufBytes
      ∧ ∃ cur b, s.slotAt .rx (drainSlot s j) = some cur ∧ s.bufOf cur = some b
  stops : ddSet (descStatus .rx (drainSlot s gs.length) s) = false

theorem DrainReady.supplied {gs : List Grant} {rest : List (Option Grant)} {s : State} (ready : DrainReady gs rest s) :
    Supplied gs rest s :=
  ⟨ready.count.right, ready.allocs, ready.grants, ready.fresh, ready.completed, ready.stops⟩

section Supply

variable {g : Grant} {gs : List Grant} {rest : List (Option Grant)} {h : Handle} {i j : Nat} {s : State}

theorem Supplied.pos (sup : Supplied gs rest s) : 0 < ringSize .rx s := Nat.zero_lt_of_lt sup.few

theorem Supplied.occupied (sup : Supplied (g :: gs) rest s) :
    s.slotAt .rx (drainSlot s 0) = some (current s) ∧ s.bufOf (current s) ≠ none := by
  obtain ⟨-, -, cur, b, slot, live⟩ := sup.completed 0 (Nat.succ_pos _)
  have found : current s = cur := by rw [current, slot, Option.getD_some]
  rw [found, slot, live]
  exact ⟨rfl, Option.some_ne_none b⟩

/-- The buffers to come are in the pool. -/
theorem Supplied.absent {f : Grant} (sup : Supplied gs rest s) (hf : f ∈ gs) : s.bufOf f.handle = none :=
  grantsOk_absent sup.grants f hf

theorem Supplied.ne_current {f : Grant} (sup : Supplied (g :: gs) rest s) (hf : f ∈ g :: gs) :
    f.handle ≠ current s := fun same => sup.occupied.right (same ▸ sup.absent hf)

theorem Supplied.first (sup : Supplied (g :: gs) rest s) : Round g s := by
  obtain ⟨done, fits, -⟩ := sup.completed 0 (Nat.succ_pos _)
  obtain ⟨occupied, live⟩ := sup.occupied
  obtain ⟨tx, rx⟩ := sup.fresh g List.mem_cons_self
  obtain ⟨named, pool, -, place, -⟩ := grantsOk_cons.mp sup.grants
  have input : s.allocs = some g :: (gs.map some ++ rest) := sup.input
  have ok : grantOk [] g s = true := grantOk_iff.mpr ⟨named, pool, place⟩
  exact {
    done, fits, occupied
    good := by rw [badGrant_some input, ok]; rfl
    answer := by simp [allocAnswer, proposal, input, ok]
    live := bufOf_given_ne_none live g
    only := by rw [inOtherSlot, tx, namedBy_skip rx]; rfl }

theorem ringRegion_consumed (r : Ring) (g : Grant) (s : State) : ringRegion r (consumed g s) = ringRegion r s := by
  have bytes : ringBytes r (consumed g s) = ringBytes r s := by cases r <;> simp only [ringBytes, consumed_regs]
  rw [ringRegion, ringBase_consumed, bytes, ringRegion]

/-- The buffers after a round (R226). -/
theorem consumed_bufs (g : Grant) (s : State) :
    (consumed g s).bufs = Assoc.insert g.handle.toNat
      { (handedUp g s).bufferAt g.handle with holder := .ring .rx (drainSlot s 0) } (handedUp g s).bufs :=
  rearmed_bufs g.handle (drainSlot s 0) (handedUp g s)

/-- The replacement keeps its area when it goes into its slot. -/
theorem liveRegions_consumed_handedUp (g : Grant) (s : State) :
    liveRegions (consumed g s) ⊆ liveRegions (handedUp g s) := by
  have live : (handedUp g s).bufOf g.handle ≠ none :=
    bufOf_handedUp_ne_none (bufOf_given_self g s ▸ Option.some_ne_none _)
  have relisted : liveRegions (consumed g s) = liveRegions ((handedUp g s).setBuf g.handle
      { (handedUp g s).bufferAt g.handle with holder := .ring .rx (drainSlot s 0) }) := by
    refine liveRegions_congr (consumed_bufs g s) ?_ fun r => (ringRegion_consumed r g s).trans ?_
    · rw [consumed_frame, handedUp_frame]
      exact ⟨rfl, rfl⟩
    · rw [handedUp_frame]
      rfl
  rw [relisted]
  exact liveRegions_relisted (bufOf_eq_bufferAt live) rfl rfl

theorem liveRegions_appended_subset (live : s.bufOf h ≠ none) (n : Nat) :
    liveRegions (appended h n s) ⊆ liveRegions s :=
  liveRegions_relisted (b' := { s.bufferAt h with len := n }) (bufOf_eq_bufferAt live) rfl rfl

theorem liveRegions_delivered_subset (live : s.bufOf h ≠ none) : liveRegions (delivered h s) ⊆ liveRegions s :=
  liveRegions_relisted (b' := { s.bufferAt h with holder := .upstream }) (bufOf_eq_bufferAt live) rfl rfl

theorem liveRegions_given_subset (g : Grant) (s : State) :
    liveRegions (given g s) ⊆ runAt g.addr s.cfg.rxBufBytes :: liveRegions s := by
  rw [given, nextProposal_frame]
  exact liveRegions_setBuf_subset g.handle (freshBuffer g s.issuer s) s

/-- A round takes no region into use but the grant's area. -/
theorem liveRegions_consumed (live : s.bufOf (current s) ≠ none) (g : Grant) :
    liveRegions (consumed g s) ⊆ runAt g.addr s.cfg.rxBufBytes :: liveRegions s := by
  have old := bufOf_given_ne_none live g
  have appends := liveRegions_appended_subset old (reported s)
  have delivers : liveRegions (handedUp g s) ⊆ _ := liveRegions_delivered_subset (bufOf_appended_ne_none old _ _)
  calc liveRegions (consumed g s)
    _ ⊆ liveRegions (handedUp g s) := liveRegions_consumed_handedUp g s
    _ ⊆ liveRegions (appended (current s) (reported s) (given g s)) := delivers
    _ ⊆ liveRegions (given g s) := appends
    _ ⊆ runAt g.addr s.cfg.rxBufBytes :: liveRegions s := liveRegions_given_subset g s

theorem Supplied.later (sup : Supplied (g :: gs) rest s) : Supplied gs rest (consumed g s) := by
  have pos := sup.pos
  have few : gs.length + 1 < ringSize .rx s := sup.few
  obtain ⟨-, -, distinct, -, later⟩ := grantsOk_cons.mp sup.grants
  refine ⟨?few, ?input, ?grants, fun f hf => ?fresh, fun j hj => ?completed, ?stops⟩
  case few => rw [ringSize_consumed]; omega
  case input => rw [consumed_allocs, sup.input]; rfl
  case grants =>
    have same (f : Grant) (hf : f ∈ gs) : (consumed g s).bufOf f.handle = s.bufOf f.handle :=
      bufOf_consumed_other (distinct f hf) (sup.ne_current (List.mem_cons_of_mem _ hf))
    rw [consumed_cfg]
    exact grantsOk_mono same (liveRegions_consumed sup.occupied.right g) later
  case fresh =>
    obtain ⟨tx, rx⟩ := sup.fresh f (List.mem_cons_of_mem _ hf)
    rw [consumed_txBuf, consumed_rxBuf]
    exact ⟨tx, namedBy_set _ rx fun same => distinct f hf (Option.some.inj same).symm⟩
  case completed =>
    obtain ⟨done, fits, cur, b, slot, live⟩ := sup.completed (j + 1) (Nat.succ_lt_succ hj)
    have same := descSame_consumed_later (j := j) pos (by omega) g
    rw [slotAt_consumed_later pos (by omega), drainSlot_consumed pos, same.status, same.length, consumed_cfg]
    refine ⟨done, fits, cur, _, slot, bufOf_eq_bufferAt (bufOf_consumed_ne_none ?_ g)⟩
    rw [live]
    exact Option.some_ne_none b
  case stops =>
    rw [drainSlot_consumed pos, (descSame_consumed_later pos few g).status]
    exact sup.stops

theorem Supplied.rounds (sup : Supplied gs rest s) : Rounds gs s := by
  induction gs generalizing s with
  | nil => exact .nil s
  | cons g gs ih => exact .cons sup.first (ih sup.later)

theorem Supplied.drained (sup : Supplied gs rest s) : Supplied [] rest (drained gs s) := by
  induction gs generalizing s with
  | nil => exact sup
  | cons g gs ih => exact ih sup.later


/-! What the rounds leave as it was (R226, R227, R230). -/

theorem slotAt_drained_other (pos : 0 < ringSize .rx s) (other : ∀ j, j < gs.length → i ≠ drainSlot s j) :
    (drained gs s).slotAt .rx i = s.slotAt .rx i := by
  induction gs generalizing s with
  | nil => rfl
  | cons g gs ih =>
    have later (j : Nat) (hj : j < gs.length) : i ≠ drainSlot (consumed g s) j := by
      rw [drainSlot_consumed pos]
      exact other (j + 1) (Nat.succ_lt_succ hj)
    rw [drained, ih (by rwa [ringSize_consumed]) later, slotAt_consumed_other (other 0 (Nat.succ_pos _))]

theorem descSame_drained (pos : 0 < ringSize .rx s) (within : i < ringSize .rx s)
    (other : ∀ j, j < gs.length → i ≠ drainSlot s j) : DescSame i s (drained gs s) := by
  induction gs generalizing s with
  | nil => exact .refl i s
  | cons g gs ih =>
    have first := descSame_consumed pos within (other 0 (Nat.succ_pos _)) g
    refine first.trans (ih (by rwa [ringSize_consumed]) (by rwa [ringSize_consumed]) fun j hj => ?_)
    rw [drainSlot_consumed pos]
    exact other (j + 1) (Nat.succ_lt_succ hj)

theorem byteAt_drained {a : Addr} (pos : 0 < ringSize .rx s)
    (other : ∀ j, j < gs.length →
      outside (descAddr .rx (drainSlot s j) 0 s) 8 a ∧ a ≠ descAddr .rx (drainSlot s j) 12 s) :
    (drained gs s).byteAt a = s.byteAt a := by
  induction gs generalizing s with
  | nil => rfl
  | cons g gs ih =>
    obtain ⟨payload, status⟩ := other 0 (Nat.succ_pos _)
    rw [drained, ih (by rwa [ringSize_consumed]) fun j hj => ?_, byteAt_consumed payload status]
    rw [drainSlot_consumed pos, descAddr_consumed, descAddr_consumed]
    exact other (j + 1) (Nat.succ_lt_succ hj)

theorem opOf_drained_other {a : Agent} (other : a ≠ s.issuer) (gs : List Grant) :
    (drained gs s).opOf a = s.opOf a := by
  induction gs generalizing s with
  | nil => rfl
  | cons g gs ih =>
    rw [drained, ih (by rwa [consumed_issuer])]
    exact (opBecomes_consumed g s).right a other

/-- The tail ends at the last slot consumed (R227). -/
theorem rdt_drained (pos : 0 < ringSize .rx s) (g : Grant) (gs : List Grant) :
    (drained (g :: gs) s).regs.rdt = indexWord (drainSlot s gs.length) := by
  induction gs generalizing g s with
  | nil => rw [drained, drained, consumed_regs, List.length_nil]
  | cons f gs ih =>
    rw [drained, ih (by rwa [ringSize_consumed]), drainSlot_consumed pos, List.length_cons]

theorem drained_frame (input : s.allocs = gs.map some ++ rest) :
    drained gs s = { s with
      regs := { s.regs with rdt := (drained gs s).regs.rdt }, mem := (drained gs s).mem, rxBuf := (drained gs s).rxBuf
      bufs := (drained gs s).bufs, allocs := rest, ops := (drained gs s).ops, out := (drained gs s).out } := by
  induction gs generalizing s with
  | nil =>
    have used : s.allocs = rest := input
    rw [drained, ← used]
  | cons g gs ih =>
    have answer : s.allocs = some g :: (gs.map some ++ rest) := input
    have later := ih (s := consumed g s) (by rw [consumed_allocs, answer]; rfl)
    rw [drained]
    generalize drained gs (consumed g s) = t at later ⊢
    rw [later, consumed_frame, nextProposal_cons answer]

/-! A grant's buffer and its slot's old one (R225, R226). -/

/-- From `s` to `t` slot `i` went over to the grant's buffer, and its old one upstream (R225, R226). -/
structure Replaced (g : Grant) (i : Nat) (s t : State) : Prop where
  slot : t.slotAt .rx i = some g.handle
  buffer : t.bufOf g.handle = some { addr := g.addr, len := 0, area := s.cfg.rxBufBytes, holder := .ring .rx i }
  payload : descPayload .rx i t = g.addr
  status : descStatus .rx i t = 0
  old : ∀ cur, s.slotAt .rx i = some cur → t.holderOf cur = .upstream

theorem Supplied.replaced (sup : Supplied (g :: gs) rest s) : Replaced g (drainSlot s 0) s (consumed g s) := by
  have other := sup.ne_current List.mem_cons_self
  obtain ⟨occupied, -⟩ := sup.occupied
  refine ⟨slotAt_consumed_self (occupied ▸ Option.some_ne_none _) g, bufOf_consumed_grant other,
    descPayload_consumed_self other, descStatus_consumed_self g s, fun cur slot => ?_⟩
  obtain rfl : current s = cur := Option.some.inj (occupied.symm.trans slot)
  exact holderOf_consumed_current other

/-- No round touches a buffer that is neither granted nor in one of its slots (R290). -/
theorem Supplied.bufOf_drained_other (sup : Supplied gs rest s) (ungranted : ∀ g ∈ gs, g.handle ≠ h)
    (elsewhere : ∀ j, j < gs.length → s.slotAt .rx (drainSlot s j) ≠ some h) :
    (Machine.drained gs s).bufOf h = s.bufOf h := by
  induction gs generalizing s with
  | nil => rfl
  | cons g gs ih =>
    obtain ⟨first, later⟩ := List.forall_mem_cons.mp ungranted
    have old : h ≠ current s := fun same =>
      elsewhere 0 (Nat.succ_pos _) (sup.occupied.left.trans (congrArg some same.symm))
    rw [Machine.drained, ih sup.later later fun j hj => ?_, bufOf_consumed_other first.symm old]
    have few : gs.length + 1 < ringSize .rx s := sup.few
    rw [slotAt_consumed_later sup.pos (by omega)]
    exact elsewhere (j + 1) (Nat.succ_lt_succ hj)

theorem Supplied.holderOf_drained_upstream (sup : Supplied gs rest s) (ungranted : ∀ g ∈ gs, g.handle ≠ h)
    (up : s.holderOf h = .upstream) : (Machine.drained gs s).holderOf h = .upstream := by
  induction gs generalizing s with
  | nil => exact up
  | cons g gs ih =>
    obtain ⟨first, later⟩ := List.forall_mem_cons.mp ungranted
    refine ih sup.later later ?_
    by_cases old : h = current s
    · rw [old]
      exact holderOf_consumed_current (sup.ne_current List.mem_cons_self)
    · rw [State.holderOf, bufOf_consumed_other first.symm old]
      exact up

/-- The rounds that follow leave a slot that was re-armed, its buffer and its old one. -/
theorem Replaced.drained {u : State} (armed : Replaced g i s u) (sup : Supplied gs rest u) (within : i < ringSize .rx u)
    (apart : ∀ j, j < gs.length → i ≠ drainSlot u j)
    (elsewhere : ∀ j, j < gs.length → u.slotAt .rx (drainSlot u j) ≠ some g.handle)
    (live : ∀ cur, s.slotAt .rx i = some cur → ∀ f ∈ gs, f.handle ≠ cur) : Replaced g i s (drained gs u) := by
  have fresh (f : Grant) (hf : f ∈ gs) : f.handle ≠ g.handle := fun same => by
    have absent := sup.absent hf
    rw [same, armed.buffer] at absent
    cases absent
  have desc := descSame_drained sup.pos within apart
  exact {
    slot := (slotAt_drained_other sup.pos apart).trans armed.slot
    buffer := (sup.bufOf_drained_other fresh elsewhere).trans armed.buffer
    payload := desc.payload.trans armed.payload
    status := desc.status.trans armed.status
    old := fun cur slot => sup.holderOf_drained_upstream (live cur slot) (armed.old cur slot) }

/-- Each slot goes over to its own grant (R230). -/
theorem Supplied.replaced_drained (sup : Supplied gs rest s) (hg : gs[j]? = some g) :
    Replaced g (drainSlot s j) s (Machine.drained gs s) := by
  have pos := sup.pos
  induction gs generalizing s j with
  | nil => nomatch hg
  | cons f gs ih =>
    have few : gs.length + 1 < ringSize .rx s := sup.few
    cases j with
    | zero =>
      obtain rfl : f = g := Option.some.inj hg
      refine sup.replaced.drained sup.later (by rw [ringSize_consumed]; exact drainSlot_lt pos 0) (fun j hj => ?apart)
        (fun j hj => ?elsewhere) fun cur slot e he => ?live
      case apart =>
        rw [drainSlot_consumed pos]
        exact (drainSlot_succ_ne (by omega)).symm
      case elsewhere =>
        obtain ⟨-, -, cur, b, slot, live⟩ := sup.completed (j + 1) (Nat.succ_lt_succ hj)
        rw [slotAt_consumed_later pos (by omega), slot]
        intro same
        cases same
        rw [sup.absent List.mem_cons_self] at live
        cases live
      case live =>
        obtain rfl : current s = cur := Option.some.inj (sup.occupied.left.symm.trans slot)
        exact sup.ne_current (List.mem_cons_of_mem _ he)
    | succ j =>
      have hj : j < gs.length := Nat.succ_lt_succ_iff.mp (List.getElem?_eq_some_iff.mp hg).1
      have later := ih sup.later hg sup.later.pos
      rw [drainSlot_consumed pos] at later
      exact {
        slot := later.slot
        buffer := later.buffer.trans (by rw [consumed_cfg])
        payload := later.payload
        status := later.status
        old := fun cur slot => later.old cur ((slotAt_consumed_other (drainSlot_succ_ne (by omega)) f).trans slot) }

/-- The drain consumes its slots and stops at the next one (R222, R228, R229). -/
theorem Supplied.exec_rxDrain (sup : Supplied gs rest s) (place : AtDrain s) (ready : s.rxReady = true) :
    exec .rxDrain s = .next ((Machine.drained gs s).setOp (.irqHandler .i4)) := by
  have few := sup.few
  have at1 := place.draining ready sup.pos
  obtain ⟨n, phases⟩ : ∃ n, rxPhases s = n + 3 + 7 * gs.length :=
    ⟨7 * (ringSize .rx s - gs.length), by rw [rxPhases]; omega⟩
  rw [Machine.exec_rxDrain place ready, phases]
  exact (at1.rounds sup.rounds (n + 3)).mpr ((at1.drained gs).stops sup.drained.stops n)

end Supply

/-- Settles O43: the drain is one round per grant; each round re-arms its own slot, and the others leave it so. -/
theorem drainDeliversAndRearmsEverySlot : Obligations.DrainDeliversAndRearmsEverySlot := by
  unfold Obligations.DrainDeliversAndRearmsEverySlot
  intro s gs rest place ready
  have sup := ready.supplied
  have few : gs.length < ringSize .rx s := sup.few
  refine ⟨_, sup.exec_rxDrain place ready.ready, ?frame, ⟨?own, fun a other => ?others⟩, fun j g hg => ?replaced,
    fun i other => ?slots, fun h ungranted elsewhere => ?buffers, fun a other => ?bytes⟩
  case frame =>
    have tail : (drained gs s).regs.rdt = indexWord ((tailIndex .rx s + gs.length) % ringSize .rx s) := by
      obtain ⟨g, gs, rfl⟩ := List.exists_cons_of_length_pos ready.count.left
      rw [rdt_drained sup.pos, drainSlot, List.length_cons, Nat.add_right_comm, Nat.add_assoc]
    have frame := congrArg (State.setOp (.irqHandler .i4)) (drained_frame sup.input)
    rw [tail, drained_out sup.pos few.le] at frame
    refine frame.trans ?_
    simp only [State.setOp, issuer_drained, indexWord]
  case own =>
    rw [← issuer_drained gs s]
    exact opOf_setOp_self _ _
  case others =>
    rw [opOf_setOp_other (by rwa [issuer_drained]), opOf_drained_other other]
  case replaced =>
    obtain ⟨slot, buffer, payload, status, old⟩ := sup.replaced_drained hg
    exact ⟨slot, buffer, payload, status, old⟩
  case slots => exact slotAt_drained_other sup.pos other
  case buffers => exact sup.bufOf_drained_other ungranted elsewhere
  case bytes => exact byteAt_drained sup.pos other

end Sys2Proof.Machine
end

section
/-! PROOFS. IRQ_HANDLER (R240 to R245; spec file 44_interrupt_handler.md): one rule for each phase; a handler run alone
is its phases I0 to I2, the drain at I3, and I4. -/

namespace Sys2Proof.Machine

open Sys2Proof

/-! The phases (R241 to R244). -/

section IrqPhases

variable {s : State}

theorem startHandler_admittedWhen (can : CanIssue .irq s) :
    AdmittedWhen (s.rxReady = true ∧ s.irqActive = false) (s.setOp (.irqHandler .i0)) (startHandler s) :=
  have inactive := AdmittedWhen.always.guardNot.congr ((and_iff_left trivial).trans (Bool.not_eq_true s.irqActive).to_iff)
  .admission can inactive.requires

theorem irqI0_of_inactive (inactive : s.irqActive = false) :
    irqI0 s = .next ({ s with irqActive := true }.setOp (.irqHandler .i1)) := by
  simp [irqI0, inactive, irqGoto]

/-- All ones are admitted and clear every cause (R242). -/
theorem irqI1_eq (s : State) :
    irqI1 s = .next ({ s with regs := { s.regs with icr := 0 } }.setOp (.irqHandler .i2)) := by
  have cleared : acknowledge 0xFFFFFFFF s = { s with regs := { s.regs with icr := 0 } } := by
    rw [acknowledge, clearCauses_all]
  rw [irqI1, wrIcr_eq_next.mpr ⟨causeWriteOk_iff.mpr (.inr rfl), cleared⟩]
  rfl

theorem irqI2_of_free (free : s.rxLock = .free) :
    irqI2 s = .next ({ s with rxLock := .held s.issuer }.setOp (.irqHandler (.i3 rxStartCtx))) :=
  lockThen_of_free (r := .rx) free _ _

theorem irqI2_of_held_other {a : Agent} (held : s.rxLock = .held a) (other : a ≠ s.issuer) : irqI2 s = .next s :=
  lockThen_of_held_other (r := .rx) held other _ _

/-- The state after I4: the lock and `irq_active` given back, the operation ended (R244). -/
def returned (s : State) : State := { s with rxLock := .free, irqActive := false }.clearOp

theorem irqI4_of_held (held : s.rxLock = .held s.issuer) : irqI4 s = .next (returned s) :=
  unlockThen_of_held (r := .rx) held _

end IrqPhases

/-- Settles O44: each of the four phases by its own rule, I2 by the state of the lock. -/
theorem handlerPhases : Obligations.HandlerPhases := by
  unfold Obligations.HandlerPhases
  intro s p running op
  have step : proceed s = irqPhase p s := proceed_of_opOf running op
  refine ⟨?enter, ?acknowledge, ?lock, ?wait, ?leave⟩
  case enter =>
    rintro rfl inactive
    exact ⟨_, step.trans (irqI0_of_inactive inactive), rfl, opBecomes_setOp_of_same rfl rfl _⟩
  case acknowledge =>
    rintro rfl
    exact ⟨_, step.trans (irqI1_eq s), rfl, irqLine_of_no_cause rfl, opBecomes_setOp_of_same rfl rfl _⟩
  case lock =>
    rintro rfl free
    exact ⟨_, _, step.trans (irqI2_of_free free), rfl, opBecomes_setOp_of_same rfl rfl _, rfl⟩
  case wait =>
    rintro a rfl held other
    exact step.trans (irqI2_of_held_other held other)
  case leave =>
    rintro rfl held
    exact ⟨_, step.trans (irqI4_of_held held), rfl, opBecomes_clearOp s⟩

/-! A handler run whole (R240). -/

section HandlerRuns

variable {s t : State} {o : Op} {n : Nat}

/-- A run takes the phase its operation stands at. -/
theorem runPhases_of_opPhase (running : s.failed = false) (op : s.opOf s.issuer = some o) (phase : opPhase o s = .next t)
    (n : Nat) : runPhases (n + 1) s = runPhases n t := by
  rw [runPhases, proceed_of_opOf running op, phase, andThen_next]

/-- I4 ends the operation, and the run with it. -/
theorem runPhases_i4 (running : s.failed = false) (op : s.opOf s.issuer = some (.irqHandler .i4))
    (held : s.rxLock = .held s.issuer) (n : Nat) : runPhases (n + 1) s = .next (returned s) := by
  have idle : (returned s).opOf (returned s).issuer = none := opOf_clearOp_self s
  rw [runPhases_of_opPhase running op (irqI4_of_held held)]
  exact runPhases_of_still (proceed_of_idle (s := returned s) running idle) n

/-- The phases of a drain are phases of the handler, and the one after them is I4 (R240, R228). -/
theorem runPhases_of_runDrain (running : s.failed = false) (drain : runDrain n s = .next t)
    (op : t.opOf t.issuer = some (.irqHandler .i4)) (held : t.rxLock = .held t.issuer) :
    runPhases (n + 1) s = .next (returned t) := by
  induction n generalizing s with
  | zero =>
    cases drain
    exact runPhases_i4 running op held 0
  | succ n ih =>
    rw [runDrain] at drain
    split at drain
    · next c at3 =>
      obtain ⟨u, phase, drain⟩ := andThen_eq_next.mp drain
      have step : proceed s = .next u := (proceed_of_opOf running at3).trans phase
      have kept : u.failed = s.failed := failedChangesOnlyByConstructionAndReset.right s u step
      rw [runPhases_of_opPhase running at3 phase]
      exact ih (kept.trans running) drain
    · cases drain
      exact runPhases_i4 running op held (n + 1)

/-- The state in which a handler begins its drain: every cause cleared, the lock taken, `irq_active` set (R241 to
R243). -/
def atI3 (s : State) : State :=
  { s with regs := { s.regs with icr := 0 }, rxLock := .held s.issuer, irqActive := true }.setOp
    (.irqHandler (.i3 rxStartCtx))

theorem atDrain_atI3 (can : CanIssue .irq s) : AtDrain (atI3 s) := by
  obtain ⟨running, context, -⟩ := can
  exact ⟨running, irq_allows.mp context, opOf_setOp_self _ s, rfl⟩

/-- I0 to I2, where the lock is free. -/
theorem runPhases_to_i3 (running : s.failed = false) (inactive : s.irqActive = false) (free : s.rxLock = .free) (n : Nat) :
    runPhases (n + 3) (s.setOp (.irqHandler .i0)) = runPhases n (atI3 s) := by
  let entered := { s with irqActive := true }
  let cleared := { entered with regs := { s.regs with icr := 0 } }
  have op (p : IrqPhase) (u : State) := opOf_setOp_self (.irqHandler p) u
  calc runPhases (n + 3) (s.setOp (.irqHandler .i0))
    _ = runPhases (n + 2) (entered.setOp (.irqHandler .i1)) := by
      rw [runPhases_of_opPhase (s := s.setOp _) running (op .i0 s) (irqI0_of_inactive (s := s.setOp _) inactive)]
      exact congrArg _ (setOp_setOp _ _ entered)
    _ = runPhases (n + 1) (cleared.setOp (.irqHandler .i2)) := by
      rw [runPhases_of_opPhase (s := entered.setOp _) running (op .i1 entered) (irqI1_eq (entered.setOp _))]
      exact congrArg _ (setOp_setOp _ _ cleared)
    _ = runPhases n (atI3 s) := by
      rw [runPhases_of_opPhase (s := cleared.setOp _) running (op .i2 cleared) (irqI2_of_free (s := cleared.setOp _) free)]
      exact congrArg _ (setOp_setOp _ _ { cleared with rxLock := .held s.issuer })

/-- A handler is the drain it issues, and I4 after it. -/
theorem exec_irqHandler_of_drain (can : CanIssue .irq s) (ready : s.rxReady = true) (inactive : s.irqActive = false)
    (free : s.rxLock = .free) (drain : exec .rxDrain (atI3 s) = .next t)
    (op : t.opOf t.issuer = some (.irqHandler .i4)) (held : t.rxLock = .held t.issuer) :
    exec .irqHandler s = .next (returned t) := by
  have run := (exec_rxDrain (atDrain_atI3 can) ready).symm.trans drain
  change andThen (startHandler s) (runPhases (irqPhases s)) = _
  rw [(startHandler_admittedWhen can).next ⟨ready, inactive⟩, andThen_next]
  obtain ⟨running, -, -⟩ := can
  exact (runPhases_to_i3 running inactive free (rxPhases s + 1)).trans
    (runPhases_of_runDrain (s := atI3 s) running run op held)

end HandlerRuns

/-! A handler with slots to drain, or none (R245). -/

section HandlerDrains

variable {s : State} {gs : List Grant} {rest : List (Option Grant)}

/-- A drain writes no operation in progress but its own (R48). -/
theorem ops_setOp_drained (gs : List Grant) (o : Op) (s : State) : ((drained gs s).setOp o).ops = (s.setOp o).ops := by
  induction gs generalizing s with
  | nil => rfl
  | cons g gs ih =>
    let worked := tailAt (indexWord (drainSlot s 0)) (rearmed g.handle (drainSlot s 0) (handedUp g s))
    have same : worked.ops = s.ops ∧ worked.issuer = s.issuer := by
      simp only [worked]
      rw [rearmed_frame, handedUp_frame]
      exact ⟨rfl, rfl⟩
    calc ((drained (g :: gs) s).setOp o).ops
      _ = ((consumed g s).setOp o).ops := ih (consumed g s)
      _ = (worked.setOp o).ops := congrArg State.ops (setOp_setOp _ o worked)
      _ = (s.setOp o).ops := by rw [setOp_ops, setOp_ops, same.left, same.right]

theorem drainOutputs_atI3 (s : State) (j : Nat) (gs : List Grant) : drainOutputs (atI3 s) j gs = drainOutputs s j gs := by
  induction gs generalizing j with
  | nil => rfl
  | cons g gs ih =>
    rw [drainOutputs, ih]
    rfl

/-- I0 to I2 change nothing that the drain needs. -/
theorem supplied_atI3 (sup : Supplied gs rest s) : Supplied gs rest (atI3 s) :=
  ⟨sup.few, sup.input, sup.grants, sup.fresh, sup.completed, sup.stops⟩

/-- A drain with nothing to consume needs no grant. -/
theorem supplied_nil (pos : 0 < ringSize .rx s) (clear : ddSet (descStatus .rx (drainSlot s 0) s) = false) :
    Supplied [] s.allocs s :=
  ⟨pos, rfl, rfl, fun _ hg => (nomatch hg), fun _ hj => (nomatch hj), clear⟩

/-- The state in which a handler has done its drain (R228). -/
def atI4 (gs : List Grant) (s : State) : State := (drained gs (atI3 s)).setOp (.irqHandler .i4)

theorem exec_rxDrain_atI3 (can : CanIssue .irq s) (ready : s.rxReady = true) (sup : Supplied gs rest s) :
    exec .rxDrain (atI3 s) = .next (atI4 gs s) :=
  (supplied_atI3 sup).exec_rxDrain (atDrain_atI3 can) ready

/-- With the handler's end nothing of it is left among the operations in progress. -/
theorem ops_returned_atI4 (idle : s.opOf s.issuer = none) (gs : List Grant) : (returned (atI4 gs s)).ops = s.ops := by
  have own : (atI4 gs s).ops = (s.setOp (.irqHandler .i4)).ops :=
    (ops_setOp_drained gs _ (atI3 s)).trans (Assoc.insert_insert _ _ _ s.ops)
  have issuer : (atI4 gs s).issuer = s.issuer := issuer_drained gs (atI3 s)
  calc (returned (atI4 gs s)).ops
    _ = Assoc.erase (agentKey (atI4 gs s).issuer) (atI4 gs s).ops := rfl
    _ = (s.setOp (.irqHandler .i4)).clearOp.ops := by rw [own, issuer]; rfl
    _ = s.ops := congrArg State.ops (clearOp_setOp idle _)

/-- A handler run whole: its drain, with the lock, `irq_active` and the operations in progress as they were before. -/
theorem exec_irqHandler (can : CanIssue .irq s) (ready : s.rxReady = true) (inactive : s.irqActive = false)
    (free : s.rxLock = .free) (sup : Supplied gs rest s) :
    exec .irqHandler s = .next { atI4 gs s with rxLock := .free, irqActive := false, ops := s.ops } := by
  have at1 := (atDrain_atI3 can).draining ready sup.pos
  have run := exec_irqHandler_of_drain can ready inactive free (exec_rxDrain_atI3 can ready sup)
    (opOf_setOp_self _ (drained gs (atI3 s))) (at1.drained gs).lock
  obtain ⟨-, -, idle⟩ := can
  rw [run, ← ops_returned_atI4 idle gs]
  rfl

end HandlerDrains

/-- Settles O46: the handler takes I0 to I2, the drain its rounds, and I4 gives back what I0 and I2 took. -/
theorem handlerAcknowledgesAndDrains : Obligations.HandlerAcknowledgesAndDrains := by
  unfold Obligations.HandlerAcknowledgesAndDrains
  intro s gs rest can inactive free ready
  have sup := ready.supplied
  obtain ⟨-, -, tail⟩ := ready.ring.ring ready.ready
  refine ⟨atI4 gs s, exec_rxDrain_atI3 can ready.ready sup, exec_irqHandler can ready.ready inactive free sup,
    tailIndex_drained (s := atI3 s) sup.pos tail gs, ?outputs⟩
  case outputs =>
    have out : (atI4 gs s).out = s.out ++ drainOutputs (atI3 s) 0 gs := drained_out (s := atI3 s) sup.pos sup.few.le
    rw [out, drainOutputs_atI3]

/-- Settles O45: a handler whose drain has no rounds. -/
theorem handlerWithNothingCompleted : Obligations.HandlerWithNothingCompleted := by
  unfold Obligations.HandlerWithNothingCompleted
  refine fun s can => ⟨fun no => ?refused, fun ready inactive free pos clear => ?empty⟩
  case refused =>
    refine refuses_andThen ((startHandler_admittedWhen can).refuses ?_)
    rintro ⟨ready, inactive⟩
    simp [ready, inactive] at no
  case empty =>
    rw [exec_irqHandler can ready inactive free (supplied_nil pos clear), ← free, ← inactive]
    rfl

end Sys2Proof.Machine
end

section
/-! PROOFS. The device engine (R250 to R258; spec file 45_device_engine.md): what a fetch, a completion and an arriving
frame test and what each leaves of the state; of all updates only a frame's arrival raises a cause. -/

namespace Sys2Proof.Machine

open Sys2Proof

/-! Causes (R258, R307). -/

section Causes

variable {s t u : State} {i : Instr}

/-- From `s` to `t` no cause becomes pending. -/
def NoNewCause (s t : State) : Prop := ∀ k, t.regs.icr.getLsbD k = true → s.regs.icr.getLsbD k = true

theorem NoNewCause.trans (h : NoNewCause s t) (h' : NoNewCause t u) : NoNewCause s u := fun k e => h k (h' k e)

theorem NoNewCause.of_same (same : t.regs.icr = s.regs.icr) : NoNewCause s t := fun k e => by rwa [same] at e

theorem NoNewCause.of_none (none : t.regs.icr = 0) : NoNewCause s t := fun k e => by simp [none] at e

theorem noNewCause_acknowledge (v : Word) (s : State) : NoNewCause s (acknowledge v s) := by
  intro k pending
  have both : (s.regs.icr &&& ~~~v).getLsbD k = true := pending
  rw [BitVec.getLsbD_and, Bool.and_eq_true] at both
  exact both.left

/-- No elementary update raises a cause but the arrival of a frame. -/
theorem Update.noNewCause {k : UpdateKind} (w : Update k s t) (other : k ≠ .rxHead) : NoNewCause s t := by
  cases w with
  | rxDone => exact absurd rfl other
  | acknowledge v => exact noNewCause_acknowledge v s
  | blockReset => exact .of_none rfl
  | hwReset => exact .of_none rfl
  | lock r l => cases r <;> exact .of_same rfl
  | slots r l => cases r <;> exact .of_same rfl
  | _ => exact .of_same rfl

theorem noNewCause_of_phaseUpdates (h : PhaseUpdates s t) : NoNewCause s t := by
  induction h with
  | refl => exact .of_same rfl
  | tail _ w ih => exact ih.trans (w.noNewCause nofun)

theorem UpdateIn.noNewCause (other : ¬ ∃ len, i = .devRxFrame len) (w : UpdateIn i s t) : NoNewCause s t := by
  obtain ⟨k, allowed, w⟩ := w
  refine w.noNewCause ?_
  rintro rfl
  exact other allowed

end Causes

/-- Settles O58: every update of a phase, and of an instruction but DEV_RX_FRAME, leaves or clears the causes. -/
theorem onlyArrivalsRaiseACause : Obligations.OnlyArrivalsRaiseACause := by
  unfold Obligations.OnlyArrivalsRaiseACause
  refine ⟨fun i s t k e pending => ?_, fun s t k e => noNewCause_of_phaseUpdates (proceed_byPhase s t e) k⟩
  by_cases arrival : ∃ len, i = .devRxFrame len
  · exact .inr arrival
  · have kept : NoNewCause s t :=
      exec_keeps (P := NoNewCause s) (fun _ _ w h => h.trans (w.noNewCause arrival)) (.of_same rfl) e
    exact .inl (kept k pending)

/-! DEV_TX_FETCH (R251). -/

section Fetch

variable {s : State} {f : Inflight}

theorem fetchEnabled_iff :
    fetchEnabled s = true ↔ enSet s.regs.tctl = true ∧ s.txReady = true ∧ 0 < s.txPending ∧ s.txInflight = none := by
  simp only [fetchEnabled, Bool.and_eq_true, decide_eq_true_eq, Option.isNone_iff_eq_none, and_assoc]

/-- The descriptors the engine processes (U3, U5). -/
theorem badFetch_eq_false :
    badFetch f = false ↔ f.cmd &&& ~~~0x09 = 0 ∧ f.cmd.getLsbD 0 = true ∧ f.length ≠ 0 := by
  simp only [badFetch, cmdOk, cmdMask, eopSet, Bool.or_eq_false_iff, Bool.not_eq_false', beq_iff_eq,
    beq_eq_false_iff_ne, and_assoc]

theorem devTxFetch_of_disabled (can : CanIssue .dev s) (disabled : ¬ fetchEnabled s = true) :
    exec .devTxFetch s = .next s := by
  change execDevTxFetch s = _
  rw [execDevTxFetch, admission_of_canIssue can, if_pos (by simpa using disabled)]

/-- The descriptor at the head is one the engine processes, and what it names as payload is memory (U3, U5, R77). -/
def HeadFetchable (s : State) : Prop :=
  txdCmd (headIndex .tx s) s &&& ~~~0x09 = 0 ∧ (txdCmd (headIndex .tx s) s).getLsbD 0 = true ∧
    descLength .tx (headIndex .tx s) s ≠ 0 ∧
    inMemory s.cfg (runAt (descPayload .tx (headIndex .tx s) s) (descLength .tx (headIndex .tx s) s).toNat) = true

theorem headFetchable_iff :
    HeadFetchable s ↔
      badFetch (fetched (headIndex .tx s) s) = false ∧ payloadInMemory (fetched (headIndex .tx s) s) s = true := by
  simp only [badFetch_eq_false, HeadFetchable, and_assoc]
  rfl

theorem devTxFetch_admittedWhen (can : CanIssue .dev s) (enabled : fetchEnabled s = true) :
    AdmittedWhen (HeadFetchable s) ({ s with txInflight := some (fetched (headIndex .tx s) s) }.respond codeOk 0)
      (exec .devTxFetch s) := by
  refine .admission can ?_
  rw [if_neg (by simp [enabled])]
  exact AdmittedWhen.required.guardNot.congr ((and_congr_left' (Bool.not_eq_true _).to_iff).trans headFetchable_iff.symm)

theorem toNat_fetched_slot (s : State) : (fetched (headIndex .tx s) s).slot.toNat = headIndex .tx s :=
  Nat.mod_eq_of_lt (indexField_lt s.regs.tdh)

theorem Memory.getElem?_readBytes (m : List Host.Cell) (a : Addr) {n k : Nat} (hk : k < n) :
    (Memory.readBytes m a n)[k]? = some (Memory.read m (a + BitVec.ofNat 64 k).toNat) := by
  have within : k < (Memory.readBytes m a n).length := by rwa [Memory.length_readBytes]
  rw [List.getElem?_eq_getElem within, Memory.getElem_readBytes]

end Fetch

/-- Settles O47: enabled, the fetch is the latching of the slot at the head behind the tests of its descriptor and of
its payload's place. -/
theorem deviceFetchesTheHeadSlot : Obligations.DeviceFetchesTheHeadSlot := by
  unfold Obligations.DeviceFetchesTheHeadSlot
  refine fun s can => ⟨fun enabled => ?enabled, fun no => devTxFetch_of_disabled can ?disabled⟩
  case enabled =>
    have fetch := devTxFetch_admittedWhen can (fetchEnabled_iff.mpr enabled)
    refine ⟨fun bad => fetch.refuses ?ill, fun mask eop length memory => ?well⟩
    case ill =>
      rintro ⟨mask, eop, length, memory⟩
      rcases bad with h | h | h | h
      · exact h mask
      · cases h.symm.trans eop
      · exact length h
      · cases h.symm.trans memory
    case well =>
      exact ⟨_, _, fetch.next ⟨mask, eop, length, memory⟩, rfl, toNat_fetched_slot s, rfl, rfl, rfl,
        Memory.length_readBytes _ _ _, fun k hk => Memory.getElem?_readBytes s.mem _ hk⟩
  case disabled =>
    rw [fetchEnabled_iff]
    rintro ⟨enable, ready, pending, idle⟩
    simp [enable, ready, pending.ne', idle] at no

/-! DEV_TX_DONE (R252). -/

section Completion

variable {s : State} {f : Inflight}

theorem devTxDone_of_flight (can : CanIssue .dev s) (flight : s.txInflight = some f)
    (enabled : enSet s.regs.tctl = true) : exec .devTxDone s = .next ((completeTx f s).respond codeOk 0) := by
  change execDevTxDone s = _
  simp only [execDevTxDone, admission_of_canIssue can, flight, enabled, if_true, done]

theorem devTxDone_of_none (can : CanIssue .dev s) (none : s.txInflight = none) : exec .devTxDone s = .next s := by
  change execDevTxDone s = _
  simp only [execDevTxDone, admission_of_canIssue can, none]

theorem devTxDone_of_disabled (can : CanIssue .dev s) (disabled : enSet s.regs.tctl = false) :
    exec .devTxDone s = .next s := by
  cases flight : s.txInflight with
  | none => exact devTxDone_of_none can flight
  | some f =>
    change execDevTxDone s = _
    simp only [execDevTxDone, admission_of_canIssue can, flight, disabled, Bool.false_eq_true, if_false]

theorem reportStatus_frame (f : Inflight) (s : State) :
    reportStatus f s = { s with mem := (reportStatus f s).mem } := by
  unfold reportStatus
  split <;> rfl

theorem descStatus_reportStatus (f : Inflight) (s : State) :
    descStatus .tx f.slot.toNat (reportStatus f s) =
      if rsSet f.cmd = true then withDd (descStatus .tx f.slot.toNat s) else descStatus .tx f.slot.toNat s := by
  unfold reportStatus
  split
  · exact descStatus_setDescStatus .tx _ _ s
  · rfl

theorem byteAt_reportStatus {a : Addr} (other : a ≠ descAddr .tx f.slot.toNat offStatus s) :
    (reportStatus f s).byteAt a = s.byteAt a := by
  unfold reportStatus
  split
  · exact byteAt_storeByte_other other _ s
  · rfl

/-- A completion writes memory as its report does, and moves the head, what is pending and what is in flight. -/
theorem completeTx_frame (f : Inflight) (s : State) :
    completeTx f s = { s with
      regs := { s.regs with tdh := indexWord (ringNext f.slot.toNat (ringSize .tx s)) }
      mem := (reportStatus f (s.emit (.wireTx f.bytes))).mem
      txPending := s.txPending - 1, txInflight := none }.emit (.wireTx f.bytes) := by
  rw [completeTx, reportStatus_frame]
  rfl

theorem descStatus_completeTx (f : Inflight) (s : State) :
    descStatus .tx f.slot.toNat (completeTx f s) =
      if rsSet f.cmd = true then withDd (descStatus .tx f.slot.toNat s) else descStatus .tx f.slot.toNat s :=
  descStatus_reportStatus f (s.emit (.wireTx f.bytes))

theorem byteAt_completeTx {a : Addr} (other : a ≠ descAddr .tx f.slot.toNat offStatus s) :
    (completeTx f s).byteAt a = s.byteAt a :=
  byteAt_reportStatus (s := s.emit (.wireTx f.bytes)) other

end Completion

/-- Settles O48: with a slot in flight and the half enabled the event is that slot's completion. -/
theorem deviceCompletesTheSlotInFlight : Obligations.DeviceCompletesTheSlotInFlight := by
  unfold Obligations.DeviceCompletesTheSlotInFlight
  refine fun s can => ⟨fun f flight enabled => ?completes, fun no => ?rests⟩
  case completes =>
    refine ⟨_, devTxDone_of_flight can flight enabled, ?state, ?status, fun a => byteAt_completeTx⟩
    case state =>
      rw [completeTx_frame]
      rfl
    case status => exact (descStatus_respond _ _ _ _ _).trans (descStatus_completeTx f s)
  case rests => exact no.elim (devTxDone_of_none can) (devTxDone_of_disabled can)

/-! What DEV_RX_FRAME writes (R253). -/

section Filling

variable {h n : Nat} {f s : State}

/-- What follows the length in the descriptor, as the device writes it: the fillers, then the status (R253, R81). -/
def flagged (h : Nat) (f s : State) : State := setDescStatus .rx h (rxStatus f) (writeFillers h f s)

/-- The payload stored for slot `h` (R253). -/
def landed (h n : Nat) (f : State) : State := f.storeBytes (descPayload .rx h f) (frameBytes f n)

@[simp] theorem landed_regs (h n : Nat) (f : State) : (landed h n f).regs = f.regs := rfl

theorem fillSlot_eq (h n : Nat) (f : State) : fillSlot h n f = flagged h f (setDescLength .rx h n (landed h n f)) := rfl

@[simp] theorem flagged_regs (h : Nat) (f s : State) : (flagged h f s).regs = s.regs := rfl

theorem SameOutside.refl (a : Addr) (n : Nat) (s : State) : SameOutside a n s s := fun _ _ => rfl

/-- One more field stored, among the `k` bytes of a descriptor from byte `m` on. -/
theorem SameOutside.field {r : Ring} {i m k off : Nat} {bs : List Byte} {s u : State}
    (before : SameOutside (descAddr r i m s) k s u) (regs : u.regs = s.regs) (from_m : m ≤ off)
    (fits : off + bs.length ≤ m + k) :
    SameOutside (descAddr r i m s) k s (u.storeBytes (descAddr r i off u) bs) := by
  have place : descAddr r i off u = descAddr r i m s + BitVec.ofNat 64 (off - m) := by
    rw [descAddr_congr regs, descAddr_add, Nat.add_sub_cancel' from_m]
  rw [place]
  exact before.trans (.store u (off - m) (by omega))

theorem sameOutside_flagged (h : Nat) (f s : State) : SameOutside (descAddr .rx h 10 s) 6 s (flagged h f s) := by
  have csum := (SameOutside.refl (descAddr .rx h 10 s) 6 s).field (off := offCsum)
    (bs := [fieldByte f 0, fieldByte f 1]) rfl (by decide) (by simp [offCsum])
  have errors := csum.field (off := offErrors) (bs := [fieldByte f 2]) rfl (by decide) (by simp [offErrors])
  have special := errors.field (off := offSpecial) (bs := [fieldByte f 3, fieldByte f 4]) rfl (by decide)
    (by simp [offSpecial])
  exact special.field (off := offStatus) (bs := [rxStatus f]) rfl (by decide) (by simp [offStatus])

/-- The length is none of the bytes from 10 on (R108). -/
theorem descLength_of_sameOutside {r : Ring} {i : Nat} {s t : State} (regs : t.regs = s.regs)
    (same : SameOutside (descAddr r i 10 s) 6 s t) : descLength r i t = descLength r i s := by
  have bytes : Memory.readBytes t.mem (descAddr r i offLength s) 2 = Memory.readBytes s.mem (descAddr r i offLength s) 2 := by
    refine Memory.readBytes_congr fun k hk => same _ fun d hd at10 => ?_
    rw [descAddr_eq_add r i offLength, descAddr_eq_add r i 10, add_ofNat_add, add_ofNat_add] at at10
    have := add_ofNat_injective (by simp only [offLength]; omega) (by omega) at10
    simp only [offLength] at this
    omega
  rw [descLength, descAddr_congr regs, State.load, bytes]
  rfl

theorem descLength_fillSlot (h : Nat) (len : Idx) (f : State) : descLength .rx h (fillSlot h len.toNat f) = len := by
  rw [fillSlot_eq, descLength_of_sameOutside (flagged_regs h f _) (sameOutside_flagged h f _)]
  apply BitVec.eq_of_toNat_eq
  rw [toNat_descLength_setDescLength, Nat.mod_eq_of_lt len.isLt]

theorem ddSet_withDd (b : Byte) : ddSet (withDd b) = true := by
  rw [ddSet, withDd, BitVec.getLsbD_or]
  exact Bool.or_true _

theorem ddSet_fillSlot (h n : Nat) (f : State) : ddSet (descStatus .rx h (fillSlot h n f)) = true := by
  rw [fillSlot_eq, flagged, descStatus_setDescStatus]
  exact ddSet_withDd _

/-- After the payload only the descriptor's bytes from 8 on are written. -/
theorem sameOutside_fillSlot (h n : Nat) (f : State) :
    SameOutside (descAddr .rx h 8 f) 8 (landed h n f) (fillSlot h n f) := by
  rw [fillSlot_eq, ← descAddr_congr (landed_regs h n f)]
  generalize landed h n f = s
  have length := (SameOutside.refl (descAddr .rx h 8 s) 8 s).field (off := offLength) (bs := leBytes 2 n) rfl
    (by decide) (by rw [length_leBytes]; decide)
  have flags := sameOutside_flagged h f (setDescLength .rx h n s)
  rw [descAddr_congr (setDescLength_regs .rx h n s), ← descAddr_add .rx h 8 2] at flags
  exact length.trans (flags.within (by decide))

theorem length_frameBytes (s : State) (n : Nat) : (frameBytes s n).length = n := by
  rw [frameBytes, List.length_map, List.length_range]

theorem getElem?_frameBytes {k : Nat} {b : Byte} (hk : k < n) (data : (arriving s).data[k]? = some b) :
    (frameBytes s n)[k]? = some b := by
  rw [frameBytes, List.getElem?_map, List.getElem?_range hk, Option.map_some, frameByte, List.getD_eq_getElem?_getD, data,
    Option.getD_some]

theorem byteAt_landed_outside {a : Addr} (out : outside (descPayload .rx h f) n a) :
    (landed h n f).byteAt a = f.byteAt a := by
  rw [landed, byteAt_storeBytes_outside f (by rwa [length_frameBytes])]

theorem byteAt_landed {k : Nat} {b : Byte} (short : n ≤ 2 ^ 64) (hk : k < n) (data : (arriving f).data[k]? = some b) :
    (landed h n f).byteAt (descPayload .rx h f + BitVec.ofNat 64 k) = b :=
  byteAt_storeBytes f (by rwa [length_frameBytes]) (getElem?_frameBytes hk data)

end Filling

/-! DEV_RX_FRAME (R253, R254). -/

section Arrival

variable {s : State} {len : Idx}

/-- The length of a frame that may arrive (U11). -/
def Offered (len : Idx) (s : State) : Prop := 0 < len.toNat ∧ len.toNat ≤ s.cfg.rxBufBytes

theorem offered_iff : Offered len s ↔ ¬ (len = 0 ∨ s.cfg.rxBufBytes < len.toNat) := by
  rw [Offered, ← BitVec.toNat_inj]
  simp only [BitVec.ofNat_eq_ofNat, BitVec.toNat_ofNat, Nat.zero_mod]
  omega

theorem devRxFrame_refuses_length (ill : ¬ Offered len s) : Refuses (exec (.devRxFrame len) s) :=
  admission_refuses (refuses_of_guard (not_not.mp (offered_iff.not.mp ill)))

theorem devRxFrame_of_disabled (can : CanIssue .dev s) (offered : Offered len s)
    (disabled : (enSet s.regs.rctl && s.rxReady) = false) : exec (.devRxFrame len) s = .next s.frameGone := by
  change execDevRxFrame len s = _
  rw [execDevRxFrame, admission_of_canIssue can, if_neg (offered_iff.mp offered), if_pos (by simp [disabled])]

theorem devRxFrame_of_empty (can : CanIssue .dev s) (offered : Offered len s) (enabled : enSet s.regs.rctl = true)
    (ready : s.rxReady = true) (empty : windowEmpty s = true) :
    exec (.devRxFrame len) s = .next (s.frameGone.respond codeOk 0) := by
  change execDevRxFrame len s = _
  rw [execDevRxFrame, admission_of_canIssue can, if_neg (offered_iff.mp offered), if_neg (by simp [enabled, ready]),
    if_pos empty, done]

theorem devRxFrame_admittedWhen (can : CanIssue .dev s) (offered : Offered len s) (enabled : enSet s.regs.rctl = true)
    (ready : s.rxReady = true) (nonempty : ¬ windowEmpty s = true) :
    AdmittedWhen (targetInMemory len.toNat s = true) ((receiveFrame len.toNat s).frameGone.respond codeOk 0)
      (exec (.devRxFrame len) s) := by
  refine .admission can ?_
  rw [if_neg (offered_iff.mp offered), if_neg (by simp [enabled, ready]), if_neg nonempty]
  exact .required

/-- An arrival fills the slot at the head, moves the head and raises the cause (R253, R307). -/
theorem receiveFrame_frame (n : Nat) (s : State) :
    (receiveFrame n s).frameGone = { s with
      regs := { s.regs with
        rdh := indexWord (ringNext (headIndex .rx s) (ringSize .rx s)), icr := raiseArrival s.regs.icr }
      mem := (fillSlot (headIndex .rx s) n s).mem, frames := s.frames.tail, draws := s.draws + 1 } := rfl

theorem descLength_receiveFrame (i n : Nat) (s : State) :
    descLength .rx i (receiveFrame n s).frameGone = descLength .rx i (fillSlot (headIndex .rx s) n s) := rfl

theorem descStatus_receiveFrame (i n : Nat) (s : State) :
    descStatus .rx i (receiveFrame n s).frameGone = descStatus .rx i (fillSlot (headIndex .rx s) n s) := rfl

/-- Outside the descriptor's bytes from 8 on, memory is as the payload left it. -/
theorem byteAt_receiveFrame {n : Nat} {a : Addr} (desc : outside (descAddr .rx (headIndex .rx s) 8 s) 8 a) :
    (receiveFrame n s).frameGone.byteAt a = (landed (headIndex .rx s) n s).byteAt a :=
  sameOutside_fillSlot (headIndex .rx s) n s a desc

end Arrival

/-- Settles O49: by the frame's length, the enabling, the window and the target's place; what fills the slot is the
payload, then the descriptor's bytes from 8 on. -/
theorem framesFillTheWindow : Obligations.FramesFillTheWindow := by
  unfold Obligations.FramesFillTheWindow
  refine fun s len can => ⟨fun ill => devRxFrame_refuses_length ?length, fun pos fits =>
    ⟨fun off => ?disabled, fun enabled ready empty => ?dropped, fun enabled ready several nowhere => ?refused,
      fun enabled ready several memory => ?filled⟩⟩
  case length =>
    rintro ⟨pos, fits⟩
    omega
  case disabled =>
    refine ⟨_, devRxFrame_of_disabled can ⟨pos, fits⟩ ?_, rfl⟩
    rwa [Bool.and_eq_false_iff]
  case dropped => exact ⟨_, devRxFrame_of_empty can ⟨pos, fits⟩ enabled ready (beq_iff_eq.mpr empty), rfl⟩
  case refused =>
    have arrive := devRxFrame_admittedWhen can ⟨pos, fits⟩ enabled ready (several ∘ beq_iff_eq.mp)
    exact arrive.refuses (ne_true_of_eq_false nowhere)
  case filled =>
    have arrive := devRxFrame_admittedWhen can ⟨pos, fits⟩ enabled ready (several ∘ beq_iff_eq.mp)
    have short : len.toNat ≤ 2 ^ 64 := by omega
    have state := congrArg (State.respond codeOk 0) (receiveFrame_frame len.toNat s)
    refine ⟨_, arrive.next memory, state, ?size, ?status, fun a payload desc => ?others,
      fun k b hk data desc => ?bytes⟩
    case size => rw [descLength_respond, descLength_receiveFrame, descLength_fillSlot]
    case status => rw [descStatus_respond, descStatus_receiveFrame, ddSet_fillSlot]
    case others => rw [byteAt_respond, byteAt_receiveFrame desc, byteAt_landed_outside payload]
    case bytes => rw [byteAt_respond, byteAt_receiveFrame desc, byteAt_landed short hk data]

end Sys2Proof.Machine
end

section
/-! PROOFS. The receive ring stays exact (R284, R288; spec file 46_slot_state_machine.md): what a slot's state and the
two windows are read from, and what an arriving frame does to the receive window. -/

namespace Sys2Proof.Machine

open Sys2Proof

/-! Steps around a ring (R180). -/

/-- Fewer steps than a ring has slots lead from a slot to different slots. -/
theorem ring_steps_injective {a j k n : Nat} (ha : a < n) (hj : j < n) (hk : k < n) (same : (a + j) % n = (a + k) % n) :
    j = k := by
  rw [← ringDist_add_mod ha hj, same, ringDist_add_mod ha hk]

/-- The `d` slots from the one after the head are the `d + 1` from the head without the head itself. -/
theorem exists_lt_ringNext_iff {head d n i : Nat} (hh : head < n) (hd : d < n) :
    (∃ k < d, (ringNext head n + k) % n = i) ↔ i ≠ head ∧ ∃ k < d + 1, (head + k) % n = i := by
  have step (k : Nat) : (ringNext head n + k) % n = (head + (k + 1)) % n := by
    rw [ringNext, Nat.mod_add_mod, Nat.add_assoc, Nat.add_comm 1 k]
  have here : (head + 0) % n = head := Nat.mod_eq_of_lt hh
  constructor
  · rintro ⟨k, hk, rfl⟩
    rw [step]
    refine ⟨fun back => ?_, k + 1, by omega, rfl⟩
    exact Nat.succ_ne_zero k (ring_steps_injective hh (by omega) (by omega) (back.trans here.symm))
  · rintro ⟨other, k, hk, rfl⟩
    cases k with
    | zero => exact absurd here other
    | succ k => exact ⟨k, by omega, step k⟩

theorem canIssue_of_admission {c : AgentClass} {s t : State} {r : Result} (run : admission c s r = .next t) :
    CanIssue c s := by
  obtain ⟨running, allowed, idle, -⟩ := admission_eq_next.mp run
  exact ⟨running, allowed, idle⟩

/-! What a slot is read from: registers, memory, the pending count and the operations in progress. -/

section Congruence

variable {s t : State} {i : Nat}

theorem descStatus_congr (regs : t.regs = s.regs) (mem : t.mem = s.mem) (r : Ring) (i : Nat) :
    descStatus r i t = descStatus r i s := by
  rw [descStatus, descAddr_congr regs, State.byteAt, mem]
  rfl

theorem inWindow_congr (regs : t.regs = s.regs) (i : Nat) : inWindow i t = inWindow i s := by
  rw [inWindow, headIndex_congr regs, tailIndex_congr regs, ringSize_congr regs, inWindow]

theorem windowSize_congr (regs : t.regs = s.regs) : windowSize t = windowSize s := by
  rw [windowSize, headIndex_congr regs, tailIndex_congr regs, ringSize_congr regs, windowSize]

theorem inHwset_congr (regs : t.regs = s.regs) (pending : t.txPending = s.txPending) (i : Nat) :
    inHwset i t = inHwset i s := by
  rw [inHwset, pending, headIndex_congr regs, ringSize_congr regs, inHwset]

theorem inWindow_iff : inWindow i s = true ↔ ∃ k < windowSize s, (headIndex .rx s + k) % ringSize .rx s = i := by
  simp only [inWindow, windowSize, List.any_eq_true, List.mem_range, beq_iff_eq]

theorem RxExact.congr (exactly : RxExact s) (regs : t.regs = s.regs) (mem : t.mem = s.mem) : RxExact t := by
  intro i within
  rw [ringSize_congr regs] at within
  rw [descStatus_congr regs mem, inWindow_congr regs, tailIndex_congr regs, exactly i within]

end Congruence

/-! The receive ring (R284, R288). -/

/-- A drain's end writes no memory (R228). -/
theorem Ends.mem {s t : State} (ends : Ends s t) : t.mem = s.mem := by
  rcases ends with ⟨-, rfl⟩ | rfl
  · rfl
  · exact nextProposal_mem s

section Arrivals

variable {s t : State} {len : Idx} {h i n : Nat}

/-- A frame is lost on a receive half that is disabled or has no window, or fills the slot at the head (R253, R254). -/
theorem devRxFrame_eq_next (run : exec (.devRxFrame len) s = .next t) :
    ((enSet s.regs.rctl && s.rxReady) = false ∧ t = s.frameGone) ∨
      (windowEmpty s = true ∧ t = s.frameGone.respond codeOk 0) ∨
      (windowEmpty s = false ∧ t = (receiveFrame len.toNat s).frameGone.respond codeOk 0) := by
  have can : CanIssue .dev s := canIssue_of_admission (show execDevRxFrame len s = .next t from run)
  by_cases offered : Offered len s
  · cases enabled : (enSet s.regs.rctl && s.rxReady) with
    | false =>
      rw [devRxFrame_of_disabled can offered enabled] at run
      exact .inl ⟨rfl, (Host.Outcome.next.inj run).symm⟩
    | true =>
      obtain ⟨enable, ready⟩ := (Bool.and_eq_true _ _).mp enabled
      cases empty : windowEmpty s with
      | true =>
        rw [devRxFrame_of_empty can offered enable ready empty] at run
        exact .inr (.inl ⟨rfl, (Host.Outcome.next.inj run).symm⟩)
      | false =>
        have arrive := devRxFrame_admittedWhen can offered enable ready (ne_true_of_eq_false empty)
        exact .inr (.inr ⟨rfl, (arrive.eq_next run).right.symm⟩)
  · obtain ⟨x, refused⟩ := devRxFrame_refuses_length offered
    cases run.symm.trans refused

theorem windowEmpty_eq_false : windowEmpty s = false ↔ 0 < windowSize s := by
  rw [windowEmpty, beq_eq_false_iff_ne, Nat.pos_iff_ne_zero, windowSize]

theorem headIndex_receiveFrame (pos : 0 < ringSize .rx s) (n : Nat) :
    headIndex .rx (receiveFrame n s).frameGone = ringNext (headIndex .rx s) (ringSize .rx s) :=
  indexField_indexWord ((ringNext_lt pos).trans (ringSize_lt .rx s))

theorem tailIndex_receiveFrame (n : Nat) (s : State) :
    tailIndex .rx (receiveFrame n s).frameGone = tailIndex .rx s := rfl

theorem ringSize_receiveFrame (n : Nat) (s : State) : ringSize .rx (receiveFrame n s).frameGone = ringSize .rx s := rfl

/-- An arrival takes the head's slot out of the window (R253). -/
theorem windowSize_receiveFrame (head : headIndex .rx s < ringSize .rx s) (tail : tailIndex .rx s < ringSize .rx s)
    (nonempty : 0 < windowSize s) (n : Nat) : windowSize (receiveFrame n s).frameGone + 1 = windowSize s := by
  have pos : 0 < ringSize .rx s := by omega
  have short : windowSize s < ringSize .rx s := ringDist_lt pos
  have last : (ringNext (headIndex .rx s) (ringSize .rx s) + (windowSize s - 1)) % ringSize .rx s =
      tailIndex .rx s := by
    rw [ringNext, Nat.mod_add_mod, Nat.add_assoc, Nat.add_sub_cancel' nonempty]
    exact add_ringDist_mod head tail
  have size : windowSize (receiveFrame n s).frameGone = windowSize s - 1 := by
    rw [windowSize, headIndex_receiveFrame pos, tailIndex_receiveFrame, ringSize_receiveFrame, ← last]
    exact ringDist_add_mod (ringNext_lt pos) (by omega)
  omega

/-- The slot at the head leaves the window, and no other does (R253). -/
theorem inWindow_or_tail_receiveFrame (head : headIndex .rx s < ringSize .rx s)
    (tail : tailIndex .rx s < ringSize .rx s) (nonempty : 0 < windowSize s) (n : Nat) :
    (inWindow i (receiveFrame n s).frameGone || i == tailIndex .rx (receiveFrame n s).frameGone) = true ↔
      i ≠ headIndex .rx s ∧ (inWindow i s || i == tailIndex .rx s) = true := by
  have pos : 0 < ringSize .rx s := by omega
  have head' : headIndex .rx (receiveFrame n s).frameGone < ringSize .rx (receiveFrame n s).frameGone := by
    rw [headIndex_receiveFrame pos]; exact ringNext_lt pos
  rw [inWindow_or_tail_iff head tail, inWindow_or_tail_iff (s := (receiveFrame n s).frameGone) head' tail,
    windowSize_receiveFrame head tail nonempty, headIndex_receiveFrame pos, ringSize_receiveFrame]
  exact exists_lt_ringNext_iff head (ringDist_lt pos)

/-- The status byte of another slot is as before where the payload does not touch it. -/
theorem descStatus_fillSlot_other (hi : i < 2 ^ 16) (hh : h < 2 ^ 16) (other : i ≠ h)
    (apart : outside (descPayload .rx h s) n (descAddr .rx i offStatus s)) :
    descStatus .rx i (fillSlot h n s) = descStatus .rx i s := by
  have desc : outside (descAddr .rx h 8 s) 8 (descAddr .rx i offStatus s) := fun k hk => by
    rw [descAddr_add]
    exact descAddr_ne hi hh other (by decide) (by omega) .rx s
  have regs : (fillSlot h n s).regs = s.regs := by rw [fillSlot_eq]; rfl
  rw [descStatus, descAddr_congr regs, sameOutside_fillSlot h n s _ desc, byteAt_landed_outside apart, descStatus]

theorem RxExact.receiveFrame (exactly : RxExact s) (head : headIndex .rx s < ringSize .rx s)
    (tail : tailIndex .rx s < ringSize .rx s) (nonempty : 0 < windowSize s)
    (apart : ∀ i, i < ringSize .rx s → outside (descPayload .rx (headIndex .rx s) s) n (descAddr .rx i offStatus s)) :
    RxExact (receiveFrame n s).frameGone := by
  intro i within
  have size := ringSize_lt .rx s
  have within' : i < ringSize .rx s := within
  have moved := inWindow_or_tail_receiveFrame (i := i) head tail nonempty n
  rw [descStatus_receiveFrame]
  by_cases own : i = headIndex .rx s
  · have gone := mt moved.mp fun ⟨other, _⟩ => other own
    rw [(Bool.not_eq_true _).mp gone, own, ddSet_fillSlot]
    rfl
  · rw [descStatus_fillSlot_other (by omega) (by omega) own (apart i within'), exactly i within',
      Bool.eq_iff_iff.mpr (moved.trans (and_iff_right own))]

end Arrivals

/-- Settles O40: a drain is rounds, each of which keeps the ring exact, and an end that writes nothing; a frame that is
not lost moves the head past the slot it completes. -/
theorem receiveRingStaysExact : Obligations.ReceiveRingStaysExact := by
  unfold Obligations.ReceiveRingStaysExact
  refine ⟨fun s t ready legal exactly run => ?drain, fun s t len ready legal exactly apart run => ?arrival⟩
  all_goals obtain ⟨size, head, tail⟩ := legal.ring ready
  case drain =>
    obtain ⟨-, gs, -, can, ends⟩ := exec_rxDrain_ends (by omega) run
    exact (can.rxExact exactly head tail).congr ends.regs ends.mem
  case arrival =>
    rcases devRxFrame_eq_next run with ⟨-, rfl⟩ | ⟨-, rfl⟩ | ⟨several, rfl⟩
    · exact exactly.congr rfl rfl
    · exact exactly.congr rfl rfl
    · have kept := exactly.receiveFrame head tail (windowEmpty_eq_false.mp several)
        fun i hi k hk => (apart i hi k hk).symm
      exact kept.congr (respond_regs ..) (respond_mem ..)

end Sys2Proof.Machine
end

section
/-! PROOFS. The transmit ring stays exact (R284, R287; spec file 46_slot_state_machine.md): what a TRANSMIT run whole
can do, and which slot each of the three operations touches. -/

namespace Sys2Proof.Machine

open Sys2Proof

/-! The fields of the slots an operation does not touch. -/

/-- From `s` to `t` the fields of transmit slot `i` that the ring's exactness reads do not change. -/
structure TxFieldsSame (i : Nat) (s t : State) : Prop where
  status : descStatus .tx i t = descStatus .tx i s
  command : txdCmd i t = txdCmd i s
  length : descLength .tx i t = descLength .tx i s

section Fields

variable {r : Ring} {s t u : State} {i j : Nat}

theorem TxFieldsSame.trans (first : TxFieldsSame i s t) (later : TxFieldsSame i t u) : TxFieldsSame i s u :=
  ⟨later.status.trans first.status, later.command.trans first.command, later.length.trans first.length⟩

theorem txFieldsSame_of_mem (regs : t.regs = s.regs) (mem : t.mem = s.mem) (i : Nat) : TxFieldsSame i s t := by
  refine ⟨descStatus_congr regs mem .tx i, ?_, ?_⟩
  · rw [txdCmd, descAddr_congr regs, State.byteAt, mem]
    rfl
  · rw [descLength, descAddr_congr regs, State.load, mem]
    rfl

/-- Bytes of another descriptor are as before. -/
theorem OnlyDesc.byteAt_other (only : OnlyDesc r j s t) (hi : i < 2 ^ 16) (hj : j < 2 ^ 16) (other : i ≠ j) {o : Nat}
    (ho : o < 16) : t.byteAt (descAddr r i o s) = s.byteAt (descAddr r i o s) := by
  refine only.others _ fun k hk => ?_
  rw [← descAddr_eq_add]
  exact descAddr_ne hi hj other ho hk r s

theorem OnlyDesc.txFieldsSame (only : OnlyDesc .tx j s t) (hi : i < 2 ^ 16) (hj : j < 2 ^ 16) (other : i ≠ j) :
    TxFieldsSame i s t := by
  have bytes {o : Nat} (ho : o < 16) := only.byteAt_other hi hj other ho
  refine ⟨?_, ?_, ?_⟩
  · rw [descStatus, descAddr_congr only.regs, bytes (by decide), descStatus]
  · rw [txdCmd, descAddr_congr only.regs, bytes (by decide), txdCmd]
  · have load : t.load (descAddr .tx i offLength s) 2 = s.load (descAddr .tx i offLength s) 2 := by
      refine congrArg leNat (Memory.readBytes_congr fun k hk => ?_)
      rw [descAddr_add]
      exact bytes (show offLength + k < 16 by simp only [offLength]; omega)
    rw [descLength, descAddr_congr only.regs, load, descLength]

end Fields

/-! One slot of an exact ring (R287). -/

/-- What `TxExact` asks of slot `i`. -/
structure TxSlotExact (i : Nat) (s : State) : Prop where
  done : ddSet (descStatus .tx i s) = !inHwset i s
  command : inHwset i s = true → txdCmd i s = cmdRsEop
  length : inHwset i s = true → descLength .tx i s ≠ 0

section Exact

variable {s t : State} {i : Nat}

theorem TxExact.slot (exactly : TxExact s) (within : i < ringSize .tx s) : TxSlotExact i s :=
  ⟨exactly.done i within, exactly.command i within, exactly.length i within⟩

theorem txExact_of_slots (slots : ∀ i, i < ringSize .tx s → TxSlotExact i s)
    (flight : ∀ f, s.txInflight = some f → f.cmd = cmdRsEop) : TxExact s :=
  ⟨fun i hi => (slots i hi).done, fun i hi => (slots i hi).command, fun i hi => (slots i hi).length, flight⟩

theorem TxSlotExact.of_same (slot : TxSlotExact i s) (fields : TxFieldsSame i s t) (owned : inHwset i t = inHwset i s) :
    TxSlotExact i t := by
  refine ⟨?_, ?_, ?_⟩ <;> rw [owned]
  · rw [fields.status, slot.done]
  · rw [fields.command]
    exact slot.command
  · rw [fields.length]
    exact slot.length

theorem TxExact.congr (exactly : TxExact s) (regs : t.regs = s.regs) (mem : t.mem = s.mem)
    (pending : t.txPending = s.txPending) (flight : ∀ f, t.txInflight = some f → f.cmd = cmdRsEop) : TxExact t := by
  refine txExact_of_slots (fun i within => ?_) flight
  rw [ringSize_congr regs] at within
  exact (exactly.slot within).of_same (txFieldsSame_of_mem regs mem i) (inHwset_congr regs pending i)

/-- The slot at the head is the hardware's while one is pending (R284). -/
theorem inHwset_head (legal : TxLegal s) (ready : s.txReady = true) (pending : 0 < s.txPending) :
    inHwset (headIndex .tx s) s = true := by
  obtain ⟨-, head, -⟩ := legal.ring ready
  exact inHwset_iff.mpr ⟨0, pending, Nat.mod_eq_of_lt head⟩

end Exact

/-! DEV_TX_FETCH and DEV_TX_DONE (R251, R252). -/

section Engine

variable {s t : State} {f : Inflight} {i : Nat}

/-- What is latched is the head's slot, which is the hardware's (R251). -/
theorem TxExact.fetch (exactly : TxExact s) (legal : TxLegal s) (run : exec .devTxFetch s = .next t) : TxExact t := by
  have can := canIssue_of_admission (show execDevTxFetch s = .next t from run)
  by_cases enabled : fetchEnabled s = true
  · obtain ⟨-, rfl⟩ := (devTxFetch_admittedWhen can enabled).eq_next run
    obtain ⟨-, ready, pending, -⟩ := fetchEnabled_iff.mp enabled
    obtain ⟨-, head, -⟩ := legal.ring ready
    refine exactly.congr rfl rfl rfl fun f latched => ?_
    rw [← Option.some.inj latched]
    exact exactly.command _ head (inHwset_head legal ready pending)
  · rw [devTxFetch_of_disabled can enabled] at run
    cases run
    exact exactly

/-- A completion takes the head's slot, and no other, from the hardware (R252, R284). -/
theorem inHwset_completeTx (legal : TxLegal s) (flight : s.txInflight = some f) :
    inHwset i (completeTx f s) = true ↔ i ≠ f.slot.toNat ∧ inHwset i s = true := by
  obtain ⟨pending, oldest⟩ := legal.flight f flight
  obtain ⟨-, head, bound, -⟩ := legal.ring (legal.ready_of_flight flight)
  have size : ringSize .tx (completeTx f s) = ringSize .tx s := by rw [completeTx_frame]; rfl
  have moved : headIndex .tx (completeTx f s) = ringNext (headIndex .tx s) (ringSize .tx s) := by
    rw [completeTx_frame, oldest]
    exact indexField_indexWord ((ringNext_lt (by omega)).trans (ringSize_lt .tx s))
  have left : (completeTx f s).txPending = s.txPending - 1 := by rw [completeTx_frame]; rfl
  have steps := exists_lt_ringNext_iff (i := i) head (show s.txPending - 1 < ringSize .tx s by omega)
  rw [Nat.sub_add_cancel pending] at steps
  rw [inHwset_iff, inHwset_iff, size, moved, left, oldest]
  exact steps

theorem onlyDesc_reportStatus (f : Inflight) (s : State) : OnlyDesc .tx f.slot.toNat s (reportStatus f s) := by
  unfold reportStatus
  split
  · exact onlyDesc_setDescStatus .tx _ _ s
  · exact ⟨rfl, .refl _ _ s⟩

theorem txFieldsSame_completeTx (hi : i < 2 ^ 16) (other : i ≠ f.slot.toNat) : TxFieldsSame i s (completeTx f s) := by
  have report := (onlyDesc_reportStatus f (s.emit (.wireTx f.bytes))).txFieldsSame hi f.slot.isLt other
  exact ⟨report.status, report.command, report.length⟩

/-- The slot in flight asked for its report, and has it; every other slot is as it was (R252). -/
theorem TxExact.completeTx (exactly : TxExact s) (legal : TxLegal s) (flight : s.txInflight = some f) :
    TxExact (completeTx f s) := by
  have frame := completeTx_frame f s
  refine txExact_of_slots (fun i within => ?slots) (fun g latched => ?flight)
  case flight => rw [frame] at latched; cases latched
  case slots =>
    have owned := inHwset_completeTx (i := i) legal flight
    rw [frame] at within
    replace within : i < ringSize .tx s := within
    by_cases own : i = f.slot.toNat
    · have gone : inHwset i (Machine.completeTx f s) = false :=
        Bool.eq_false_iff.mpr (mt owned.mp fun ⟨other, _⟩ => other own)
      have report : rsSet f.cmd = true := by rw [exactly.flight f flight]; decide
      refine ⟨?_, fun mine => ?_, fun mine => ?_⟩
      · rw [gone, own, descStatus_completeTx, if_pos report, ddSet_withDd]
        rfl
      all_goals cases gone.symm.trans mine
    · have short : i < 2 ^ 16 := within.trans (ringSize_lt .tx s)
      exact (exactly.slot within).of_same (txFieldsSame_completeTx short own)
        (Bool.eq_iff_iff.mpr (owned.trans (and_iff_right own)))

theorem TxExact.devTxDone (exactly : TxExact s) (legal : TxLegal s) (run : exec .devTxDone s = .next t) :
    TxExact t := by
  have can := canIssue_of_admission (show execDevTxDone s = .next t from run)
  cases flight : s.txInflight with
  | none =>
    rw [devTxDone_of_none can flight] at run
    cases run
    exact exactly
  | some f =>
    cases enabled : enSet s.regs.tctl with
    | false =>
      rw [devTxDone_of_disabled can enabled] at run
      cases run
      exact exactly
    | true =>
      rw [devTxDone_of_flight can flight enabled] at run
      cases run
      have completed := exactly.completeTx legal flight
      exact completed.congr rfl rfl rfl completed.flight

end Engine

/-! What a TRANSMIT run whole can do (R200 to R209). -/

section Transmits

variable {s t u : State} {c : TxCtx} {b : Handle} {n : Nat}

theorem txPhase_of_runPhases (running : s.failed = false)
    (run : runPhases (n + 1) (s.setOp (.transmit c)) = .next t) :
    ∃ u, txPhase c (s.setOp (.transmit c)) = .next u := by
  obtain ⟨u, phase, -⟩ := andThen_eq_next.mp run
  exact ⟨u, proceed_setOp running c ▸ phase⟩

/-- T4 goes on only where the buffer that stood in the slot is live (R204). -/
theorem live_of_txT4 (step : txT4 c s = .next u) : ∀ g, s.slotAt .tx c.t.toNat = some g → s.bufOf g ≠ none := by
  intro g slot
  obtain ⟨v, freed, -⟩ := andThen_eq_next.mp step
  rcases freeSlotBuf_eq_next.mp freed with ⟨empty, -⟩ | ⟨h, b, named, live, -⟩
  · cases empty.symm.trans slot
  · cases named.symm.trans slot
    exact fun pool => nomatch pool.symm.trans live

/-- T5 goes on only where the ring is memory (R77). -/
theorem memory_of_txT5 (step : txT5 c s = .next u) : ringInMemory .tx s = true := by
  obtain ⟨v, marks, -⟩ := andThen_eq_next.mp step
  obtain ⟨-, -, -, memory, -⟩ := markOwned_eq_next.mp marks
  exact memory

/-- T6 goes on only where the contract holds still and the buffer is in no other slot (R200, R183, log 22). -/
theorem sendable_of_txT6 (step : txT6 c s = .next u) : Sendable c.b s ∧ inOtherSlot c.b .tx c.t.toNat s = false := by
  obtain ⟨holds, pos, fits, step⟩ := whenSendable_eq_next.mp step
  obtain ⟨v, installs, -⟩ := andThen_eq_next.mp step
  obtain ⟨-, -, -, ⟨none, -⟩ | ⟨h, named, only, -⟩⟩ := installSlot_eq_next.mp installs
  · cases none
  · cases named
    exact ⟨⟨holds, pos, fits⟩, only⟩

theorem Sendable.live (ok : Sendable b s) :
    ∃ buf, s.bufOf b = some buf ∧ buf.holder = .caller s.issuer ∧ 1 ≤ buf.len ∧ buf.len ≤ 0xFFFF := by
  obtain ⟨holds, pos, fits⟩ := ok
  cases live : s.bufOf b with
  | none => cases (holderOf_of_pool live).symm.trans holds
  | some buf =>
    rw [payloadLength_of_live live] at pos fits
    exact ⟨buf, rfl, (holderOf_of_bufOf live).symm.trans holds, pos, fits⟩

/-- A buffer that is live after T4 is not the one that was in the slot. -/
theorem bufOf_of_vacated {i : Nat} {buf : Buffer} (live : (vacated i s).bufOf b = some buf) :
    s.slotAt .tx i ≠ some b ∧ s.bufOf b = some buf := by
  have other : s.slotAt .tx i ≠ some b := fun slot => nomatch (bufOf_vacated_self slot).symm.trans live
  exact ⟨other, (bufOf_vacated_other other).symm.trans live⟩

/-- Under the lock T4 to T6 go through only for a buffer that may go into the slot. -/
theorem enqueueable_of_run (running : s.failed = false) (held : s.txLock = .held s.issuer) (phase : c.phase = .t4)
    (ready : s.txReady = true) (several : 1 < ringSize .tx s) (tail : c.t.toNat = tailIndex .tx s)
    (within : c.t.toNat < ringSize .tx s) (room : s.txPending < ringSize .tx s)
    (run : runPhases 5 (s.setOp (.transmit c)) = .next t) : ∃ buf, Enqueueable c.b buf c.t.toNat s := by
  have reach : SlotReachable .tx c.t.toNat s := ⟨held, ready, within⟩
  let emptied := vacated c.t.toNat s
  let owned := marked .tx c.t.toNat cmdRsEop emptied
  let ctx (p : TxPhase) : TxCtx := { c with phase := p, old := s.slotAt .tx c.t.toNat }
  obtain ⟨u, t4⟩ := txPhase_of_runPhases running run
  rw [txPhase, phase] at t4
  have old := live_of_txT4 t4
  rw [runPhases_t4 running phase old] at run
  obtain ⟨u, t5⟩ := txPhase_of_runPhases (c := ctx .t5) (s := emptied) running run
  have memory := memory_of_txT5 t5
  rw [runPhases_t5 (c := ctx .t5) (s := emptied) running rfl reach memory] at run
  obtain ⟨u, t6⟩ := txPhase_of_runPhases (c := ctx .t6) (s := owned) running run
  obtain ⟨ok, only⟩ := sendable_of_txT6 t6
  obtain ⟨buf, live, holds, pos, fits⟩ := ok.live
  obtain ⟨apart, live⟩ := bufOf_of_vacated live
  exact ⟨buf, ready, several, memory, tail, within, room, live, holds, pos, fits,
    (inOtherSlot_vacated c.b c.t.toNat s).symm.trans only, fun g slot => ⟨fun same => apart (same ▸ slot), old g slot⟩⟩

/-- A TRANSMIT run whole waits for the lock, finds the ring busy, or enqueues its buffer at the tail. -/
theorem exec_transmit_eq_next (legal : TxLegal s) (exactly : TxExact s) (run : exec (.transmit b) s = .next t) :
    t = s.setOp (.transmit (txStartCtx b)) ∨ t = s.respond codeRingBusy 0 ∨
      ∃ buf, Enqueueable b buf (tailIndex .tx s) s ∧
        t = (enqueued b buf (tailIndex .tx s) s).respond codeOk 0 := by
  have execution : andThen (startTransmit b s) (runPhases txPhases) = .next t := run
  obtain ⟨u, start, -⟩ := andThen_eq_next.mp execution
  have can : CanIssue .thread s := canIssue_of_admission start
  have ⟨running, _, _⟩ := can
  obtain ⟨⟨ready, named, ok⟩, -⟩ := (startTransmit_admittedWhen can b).eq_next start
  have phases := exec_transmit can ready named ok
  obtain ⟨v, t1⟩ := txPhase_of_runPhases running (phases ▸ run)
  rcases lockThen_eq_next.mp t1 with ⟨free, -⟩ | ⟨a, held, other, -⟩
  · have free : s.txLock = .free := free
    cases status : ddSet (descStatus .tx (tailIndex .tx s) s) with
    | false =>
      rw [exec_transmit_of_busy can ready free named ok status] at run
      exact .inr (.inl (Host.Outcome.next.inj run).symm)
    | true =>
      obtain ⟨size, head, bound, -⟩ := legal.ring ready
      have tail := legal.tail_lt ready
      have spare : s.txPending ≠ ringSize .tx s := fun full => by
        have done := exactly.done _ tail
        rw [(inHwset_tail_iff legal ready).mpr full, status] at done
        cases done
      have work := run
      rw [exec_transmit_of_free can ready free named ok] at work
      obtain ⟨buf, put⟩ := enqueueable_of_run (c := tested b s) (s := s.setLock .tx (.held s.issuer)) running rfl
        (if_pos status) ready (show 1 < ringSize .tx s by omega) rfl tail
        (show s.txPending < ringSize .tx s by omega) work
      have put : Enqueueable b buf (tailIndex .tx s) s := by
        have unlocked := put.setLock s.txLock
        have same : s.setLock .tx s.txLock = s := setLock_of_lockOf (r := .tx) rfl
        rwa [setLock_setLock, same] at unlocked
      rw [exec_transmit_enqueues can free named status put] at run
      exact .inr (.inr ⟨buf, put, (Host.Outcome.next.inj run).symm⟩)
  · rw [exec_transmit_of_held_other can ready held other named ok] at run
    exact .inl (Host.Outcome.next.inj run).symm

end Transmits

/-! A slot enqueued (R204 to R207). -/

section Enqueued

variable {s : State} {h : Handle} {b : Buffer} {i j : Nat}

/-- The commit of the slot at the tail gives that slot, and no other, to the hardware (R207, R284). -/
theorem inHwset_advanced (legal : TxLegal s) (ready : s.txReady = true) :
    inHwset i (advanced (tailIndex .tx s) s) = true ↔ inHwset i s = true ∨ i = tailIndex .tx s := by
  obtain ⟨-, -, -, tail⟩ := legal.ring ready
  have head : headIndex .tx (advanced (tailIndex .tx s) s) = headIndex .tx s := rfl
  have size : ringSize .tx (advanced (tailIndex .tx s) s) = ringSize .tx s := rfl
  have pending : (advanced (tailIndex .tx s) s).txPending = s.txPending + 1 := rfl
  rw [inHwset_iff, inHwset_iff, head, size, pending, exists_lt_add_slot tail]
  simp only [Nat.lt_one_iff, exists_eq_left, Nat.add_zero, Nat.mod_eq_of_lt (legal.tail_lt ready), eq_comm]

theorem inHwset_enqueued (legal : TxLegal s) (ready : s.txReady = true) :
    inHwset i (enqueued h b (tailIndex .tx s) s) = true ↔ inHwset i s = true ∨ i = tailIndex .tx s := by
  rw [← inHwset_advanced legal ready, enqueued_frame]
  rfl

theorem onlyDesc_described (h : Handle) (b : Buffer) (i : Nat) (s : State) : OnlyDesc .tx i s (described h b i s) :=
  ⟨described_regs h b i s, SameOutside.within (k := 0) (m := 10) (by
    rw [← descAddr_eq_add]; exact sameOutside_described h b i s) (by decide)⟩

theorem onlyDesc_marked (i : Nat) (c : Byte) (s : State) : OnlyDesc .tx i s (marked .tx i c s) :=
  OnlyDesc.trans (onlyDesc_storeBytes .tx i offCmd [c] (by simp [offCmd]) s) (onlyDesc_setDescStatus .tx i 0 _)

theorem txFieldsSame_enqueued (hi : i < 2 ^ 16) (hj : j < 2 ^ 16) (other : i ≠ j) :
    TxFieldsSame i s (enqueued h b j s) := by
  have emptied : TxFieldsSame i s (vacated j s) := txFieldsSame_of_mem (s := s) (t := vacated j s) rfl rfl i
  have only := (onlyDesc_marked j cmdRsEop (vacated j s)).trans (onlyDesc_described h b j _)
  exact (emptied.trans (only.txFieldsSame hi hj other)).trans ⟨rfl, rfl, rfl⟩

theorem TxExact.enqueued (exactly : TxExact s) (legal : TxLegal s) (put : Enqueueable h b (tailIndex .tx s) s) :
    TxExact (enqueued h b (tailIndex .tx s) s) := by
  have frame := enqueued_frame h b (tailIndex .tx s) s
  refine txExact_of_slots (fun i within => ?slots) (fun f latched => ?flight)
  case flight => rw [frame] at latched; exact exactly.flight f latched
  case slots =>
    have owned := inHwset_enqueued (i := i) (h := h) (b := b) legal put.ready
    rw [frame] at within
    replace within : i < ringSize .tx s := within
    by_cases own : i = tailIndex .tx s
    · have given := owned.mpr (.inr own)
      subst own
      refine ⟨?_, fun _ => txdCmd_enqueued (s.regs.tdt.extractLsb' 0 16), fun _ empty => ?_⟩
      · rw [given, descStatus_enqueued]
        decide
      · have length := toNat_descLength_enqueued (h := h) (i := tailIndex .tx s) (s := s) put.fits
        have pos := put.pos
        rw [empty] at length
        have zero : (0 : BitVec 16).toNat = 0 := rfl
        omega
    · have size := ringSize_lt .tx s
      exact (exactly.slot within).of_same (txFieldsSame_enqueued (by omega) (put.within.trans size) own)
        (Bool.eq_iff_iff.mpr (owned.trans (or_iff_left own)))

end Enqueued

/-- Settles O34: each of the three operations by what it can do when it goes through. -/
theorem transmitRingStaysExact : Obligations.TransmitRingStaysExact := by
  unfold Obligations.TransmitRingStaysExact
  rintro s t i (⟨b, rfl⟩ | rfl | rfl) legal exactly run
  case inl =>
    rcases exec_transmit_eq_next legal exactly run with rfl | rfl | ⟨buf, put, rfl⟩
    · exact exactly.congr rfl rfl rfl exactly.flight
    · exact exactly.congr rfl rfl rfl exactly.flight
    · have kept := exactly.enqueued legal put
      exact kept.congr rfl rfl rfl kept.flight
  case inr.inl => exact exactly.fetch legal run
  case inr.inr => exact exactly.devTxDone legal run

end Sys2Proof.Machine
end

section
/-! PROOFS. The life cycles of the slots (R280 to R284; spec file 46_slot_state_machine.md): which state a slot is in,
and the state each transition leaves it in. -/

namespace Sys2Proof.Machine

open Sys2Proof

/-! The state of a slot, by what decides it (R283). -/

section States

variable {s t : State} {i : Nat} {o o' : Op}

theorem slotState_tx_hardwareOwned (owned : inHwset i s = true) : slotState .tx i s = .hardwareOwned := if_pos owned

theorem slotState_tx_softwareFree (given : inHwset i s = false) (taken : s.ops.any (fun e => opHasTx i e.2) = true) :
    slotState .tx i s = .softwareFree := by
  rw [slotState, given, taken]
  rfl

theorem slotState_tx_completed (given : inHwset i s = false) (untaken : s.ops.any (fun e => opHasTx i e.2) = false) :
    slotState .tx i s = .completed := by
  rw [slotState, given, untaken]
  rfl

theorem slotState_rx_softwareFree (taken : s.ops.any (fun e => opHasRx i e.2) = true) :
    slotState .rx i s = .softwareFree := if_pos taken

theorem slotState_rx_completed (untaken : s.ops.any (fun e => opHasRx i e.2) = false)
    (done : ddSet (descStatus .rx i s) = true) : slotState .rx i s = .completed := by
  rw [slotState, untaken, done]
  rfl

theorem slotState_rx_hardwareOwned (untaken : s.ops.any (fun e => opHasRx i e.2) = false)
    (clear : ddSet (descStatus .rx i s) = false) : slotState .rx i s = .hardwareOwned := by
  rw [slotState, untaken, clear]
  rfl

/-- The issuer's operation is one of those in progress. -/
theorem any_ops_setOp {p : Op → Bool} (has : p o = true) (s : State) : (s.setOp o).ops.any (fun e => p e.2) = true :=
  List.any_eq_true.mpr ⟨_, Assoc.mem_of_lookup (Assoc.lookup_insert_self (agentKey s.issuer) o s.ops), has⟩

/-- An operation alone in progress decides for all. -/
theorem any_ops_of_alone {p : Op → Bool} {a : Agent} (alone : s.ops = [(agentKey a, o)]) :
    s.ops.any (fun e => p e.2) = p o := by
  rw [alone, List.any_cons, List.any_nil, Bool.or_false]

theorem ops_setOp_of_alone (alone : s.ops = [(agentKey s.issuer, o)]) :
    (s.setOp o').ops = [(agentKey s.issuer, o')] := by
  simp [State.setOp, alone, Assoc.insert]

theorem running_of_proceed (step : proceed s = .next t) : s.failed = false := by
  cases failed : s.failed with
  | false => rfl
  | true => simp [proceed, failed] at step

theorem txPhase_of_proceed {c : TxCtx} {p : TxPhase} (step : proceed s = .next t)
    (op : s.opOf s.issuer = some (.transmit c)) (phase : c.phase = p) : txPhase { c with phase := p } s = .next t :=
  (proceed_at (running_of_proceed step) op phase).symm.trans step

theorem rxPhase_of_proceed {c : RxCtx} {p : RxPhase} (step : proceed s = .next t)
    (op : s.opOf s.issuer = some (.irqHandler (.i3 c))) (phase : c.phase = p) :
    rxPhase { c with phase := p } s = .next t :=
  (proceed_drain (running_of_proceed step) op phase).symm.trans step

end States

/-! The transmit slot (R281). -/

section Transmit

variable {s t : State} {c : TxCtx} {f : Inflight}

/-- T3 takes a Done slot for software (R281). -/
theorem slotState_of_t3 (step : proceed s = .next t) (op : s.opOf s.issuer = some (.transmit c)) (phase : c.phase = .t3)
    (done : ddSet (descStatus .tx c.t.toNat s) = true) (given : inHwset c.t.toNat s = false) :
    slotState .tx c.t.toNat t = .softwareFree := by
  have goes : txT3 { c with phase := .t3 } s = .next t := txPhase_of_proceed step op phase
  cases goes
  refine slotState_tx_softwareFree given (any_ops_setOp (p := opHasTx c.t.toNat) ?_ s)
  simp only [opHasTx, done, if_true, txOwns, Bool.and_true, beq_self_eq_true]

/-- The commit of one slot is what T7 does (R207). -/
theorem advanced_eq_committed (several : 1 < ringSize .tx s) (tail : tailIndex .tx s < ringSize .tx s) :
    committed (indexWord (ringNext (tailIndex .tx s) (ringSize .tx s))) s = advanced (tailIndex .tx s) s := by
  have short : ringNext (tailIndex .tx s) (ringSize .tx s) < 2 ^ 16 :=
    (ringNext_lt (by omega)).trans (ringSize_lt .tx s)
  have one : ringDist (tailIndex .tx s) (ringNext (tailIndex .tx s) (ringSize .tx s)) (ringSize .tx s) = 1 :=
    ringDist_add_mod tail several
  rw [committed, indexField_indexWord short, one, advanced]

/-- T7 gives the slot to the hardware (R281). -/
theorem slotState_of_t7 (legal : TxLegal s) (step : proceed s = .next t) (op : s.opOf s.issuer = some (.transmit c))
    (phase : c.phase = .t7) (ready : s.txReady = true) (several : 1 < ringSize .tx s)
    (tail : c.t.toNat = tailIndex .tx s) : slotState .tx c.t.toNat t = .hardwareOwned := by
  have goes : txT7 { c with phase := .t7 } s = .next t := txPhase_of_proceed step op phase
  obtain ⟨u, commit, goes⟩ := andThen_eq_next.mp goes
  obtain ⟨-, rfl⟩ := (wrTdt_ready_admittedWhen (s := s) ready _).eq_next commit
  cases goes
  refine slotState_tx_hardwareOwned ?_
  rw [tail, advanced_eq_committed several (legal.tail_lt ready)]
  exact (inHwset_advanced legal ready).mpr (.inr rfl)

/-- DEV_TX_DONE takes the slot in flight from the hardware (R281). -/
theorem slotState_of_devTxDone (legal : TxLegal s) (run : exec .devTxDone s = .next t) (flight : s.txInflight = some f)
    (enabled : enSet s.regs.tctl = true) (untaken : s.ops.any (fun e => opHasTx f.slot.toNat e.2) = false) :
    slotState .tx f.slot.toNat s = .hardwareOwned ∧ slotState .tx f.slot.toNat t = .completed := by
  obtain ⟨pending, oldest⟩ := legal.flight f flight
  rw [devTxDone_of_flight (canIssue_of_admission (show execDevTxDone s = .next t from run)) flight enabled] at run
  cases run
  constructor
  · rw [oldest]
    exact slotState_tx_hardwareOwned (inHwset_head legal (legal.ready_of_flight flight) pending)
  · have gone : ¬ inHwset f.slot.toNat (completeTx f s) = true := mt (inHwset_completeTx legal flight).mp (·.left rfl)
    have ops : (completeTx f s).ops = s.ops := by rw [completeTx_frame]; rfl
    exact slotState_tx_completed ((Bool.not_eq_true _).mp gone) (by rw [respond_ops, ops, untaken])

end Transmit

/-! The receive slot (R282). -/

section Receive

variable {s t : State} {c : RxCtx} {i : Nat}

/-- D2 takes a Done slot for software (R282). -/
theorem slotState_of_d2 (step : proceed s = .next t) (op : s.opOf s.issuer = some (.irqHandler (.i3 c)))
    (phase : c.phase = .d2) (done : ddSet (descStatus .rx c.next.toNat s) = true) :
    slotState .rx c.next.toNat t = .softwareFree := by
  have goes : rxD2 { c with phase := .d2 } s = .next t := rxPhase_of_proceed step op phase
  cases goes
  refine slotState_rx_softwareFree (any_ops_setOp (p := opHasRx c.next.toNat) ?_ s)
  simp only [opHasRx, done, if_true, rxOwns, Bool.and_true, beq_self_eq_true]

/-- A drain in a phase that has its slot, alone in progress. -/
theorem slotState_of_drain (alone : s.ops = [(agentKey s.issuer, .irqHandler (.i3 c))]) (owns : rxOwns c.phase = true) :
    slotState .rx c.next.toNat s = .softwareFree := by
  refine slotState_rx_softwareFree ((any_ops_of_alone (p := opHasRx c.next.toNat) alone).trans ?_)
  simp only [opHasRx, owns, Bool.and_true, beq_self_eq_true]

/-- A drain that goes on to a phase without a slot, alone in progress, has none. -/
theorem any_opHasRx_setOp_of_alone {o : Op} {c' : RxCtx} (alone : s.ops = [(agentKey s.issuer, o)])
    (gone : rxOwns c'.phase = false) (i : Nat) :
    (s.setOp (.irqHandler (.i3 c'))).ops.any (fun e => opHasRx i e.2) = false := by
  refine (any_ops_of_alone (p := opHasRx i) (ops_setOp_of_alone alone)).trans ?_
  simp only [opHasRx, gone, Bool.and_false]

/-- A D3 whose ALLOC fails gives the slot back as it was (R282). -/
theorem slotState_of_d3_failure (step : proceed s = .next t) (op : s.opOf s.issuer = some (.irqHandler (.i3 c)))
    (phase : c.phase = .d3) (alone : s.ops = [(agentKey s.issuer, .irqHandler (.i3 c))])
    (failure : allocHandle [] s = none) (done : ddSet (descStatus .rx c.next.toNat s) = true) :
    slotState .rx c.next.toNat t = .completed := by
  have goes : rxD3 { c with phase := .d3 } s = .next t := rxPhase_of_proceed step op phase
  obtain ⟨good, -⟩ := allocThen_eq_next.mp goes
  rw [rxD3_of_failure good (Option.map_eq_none_iff.mp failure)] at goes
  cases goes
  have kept : (ungiven s).ops = [(agentKey (ungiven s).issuer, .irqHandler (.i3 c))] := by
    rw [ungiven, emit_ops, emit_issuer, nextProposal_ops, nextProposal_issuer, alone]
  refine slotState_rx_completed (any_opHasRx_setOp_of_alone kept rfl c.next.toNat) ?_
  rw [descStatus_setOp, descStatus_congr (s := s) (t := ungiven s) (nextProposal_regs s) (nextProposal_mem s), done]

/-- D6 gives the slot to the hardware (R282). -/
theorem slotState_of_d6 (step : proceed s = .next t) (op : s.opOf s.issuer = some (.irqHandler (.i3 c)))
    (phase : c.phase = .d6) (alone : s.ops = [(agentKey s.issuer, .irqHandler (.i3 c))]) :
    slotState .rx c.next.toNat t = .hardwareOwned := by
  have goes : rxD6 { c with phase := .d6 } s = .next t := rxPhase_of_proceed step op phase
  obtain ⟨u, installs, goes⟩ := andThen_eq_next.mp goes
  have sync := (installSlot_calm .rx _ _ s).sync installs
  simp only [State.sync, Prod.mk.injEq] at sync
  obtain ⟨ops, -, -, issuer⟩ := sync
  rw [← ops, ← issuer] at alone
  cases goes
  refine slotState_rx_hardwareOwned
    (any_opHasRx_setOp_of_alone (o := .irqHandler (.i3 c)) ?alone rfl c.next.toNat) ?clear
  case alone => exact alone
  case clear => rw [descStatus_setOp, descStatus_setDescStatus]; decide

/-- The tail moved on by one, as a round moves it, opens the window to the slot that was in reserve (R227, R284). -/
theorem inWindow_tailAt (head : headIndex .rx s < ringSize .rx s) (tail : tailIndex .rx s < ringSize .rx s)
    (apart : drainSlot s 0 ≠ headIndex .rx s) :
    inWindow i (tailAt (indexWord (drainSlot s 0)) s) = true ↔ inWindow i s = true ∨ i = tailIndex .rx s := by
  have round : windowSize (consumed default s) = windowSize (tailAt (indexWord (drainSlot s 0)) s) :=
    windowSize_congr (consumed_regs default s)
  have size := round.symm.trans (windowSize_consumed head tail apart default)
  have window := inWindow_or_tail_iff (i := i) head tail
  rw [Bool.or_eq_true, beq_iff_eq] at window
  rw [inWindow_iff, size, window]
  rfl

/-- D7 makes the slot in reserve available (R282). -/
theorem inWindow_of_d7 (step : proceed s = .next t) (op : s.opOf s.issuer = some (.irqHandler (.i3 c)))
    (phase : c.phase = .d7) (legal : RxLegal s) (ready : s.rxReady = true)
    (next : c.next.toNat = ringNext (tailIndex .rx s) (ringSize .rx s)) (apart : c.next.toNat ≠ headIndex .rx s) :
    inWindow i t = true ↔ inWindow i s = true ∨ i = tailIndex .rx s := by
  obtain ⟨-, head, tail⟩ := legal.ring ready
  have slot : c.next.toNat = drainSlot s 0 := next
  have goes : rxD7 { c with phase := .d7 } s = .next t := rxPhase_of_proceed step op phase
  obtain ⟨u, write, goes⟩ := andThen_eq_next.mp goes
  obtain ⟨-, -, -, rfl⟩ := wrRdt_eq_next.mp write
  cases goes
  rw [slot] at apart
  rw [← inWindow_tailAt head tail apart, ← slot, ← setWidth_eq_indexWord]
  rfl

end Receive

/-- An arriving frame completes the slot at the head (R282). -/
theorem slotState_of_devRxFrame {s t : State} {len : Idx} (run : exec (.devRxFrame len) s = .next t)
    (enabled : enSet s.regs.rctl = true) (ready : s.rxReady = true)
    (several : ringDist (headIndex .rx s) (tailIndex .rx s) (ringSize .rx s) ≠ 0)
    (untaken : s.ops.any (fun e => opHasRx (headIndex .rx s) e.2) = false) :
    slotState .rx (headIndex .rx s) t = .completed := by
  have nonempty : windowEmpty s = false := beq_eq_false_iff_ne.mpr several
  rcases devRxFrame_eq_next run with ⟨off, -⟩ | ⟨empty, -⟩ | ⟨-, rfl⟩
  · simp [enabled, ready] at off
  · cases nonempty.symm.trans empty
  · refine slotState_rx_completed untaken ?_
    rw [descStatus_respond, descStatus_receiveFrame, ddSet_fillSlot]

/-- Settles O35: each transition by its own phase or event. -/
theorem slotLifeCycles : Obligations.SlotLifeCycles := by
  unfold Obligations.SlotLifeCycles
  refine ⟨fun s t legal => ⟨fun c step op phase done given => ?t3, fun c step op phase ready several tail => ?t7,
      fun f run flight enabled _ untaken => ?done⟩,
    fun s t c step op => ⟨fun phase done => ?d2, fun phase alone failure done => ⟨?d3, ?failed⟩,
      fun phase alone => ⟨?d6, ?rearmed⟩, fun phase legal ready next apart i _ => ?d7⟩,
    fun s t len run enabled ready several untaken clear => ⟨?waiting, ?filled⟩⟩
  case t3 => exact slotState_of_t3 step op phase done given
  case t7 => exact slotState_of_t7 legal step op phase ready several tail
  case done => exact slotState_of_devTxDone legal run flight enabled untaken
  case d2 => exact slotState_of_d2 step op phase done
  case d3 | d6 => exact slotState_of_drain alone (by rw [phase]; rfl)
  case failed => exact slotState_of_d3_failure step op phase alone failure done
  case rearmed => exact slotState_of_d6 step op phase alone
  case d7 => exact inWindow_of_d7 step op phase legal ready next apart
  case waiting => exact slotState_rx_hardwareOwned untaken clear
  case filled => exact slotState_of_devRxFrame run enabled ready several untaken

end Sys2Proof.Machine
end

section
/-! PROOFS. The Failed state (R302, R321; spec file 60_exceptions.md): nothing but HW_RESET has a step in it, and a
construction whose ALLOC fails leads into it. -/

namespace Sys2Proof.Machine

open Sys2Proof

/-! The Failed state refuses (R321). -/

section Failed

variable {s : State} (failed : s.failed = true)

include failed

theorem admission_of_failed (c : AgentClass) (r : Result) : admission c s r = .refused .failedState := if_pos failed

theorem startDrain_of_failed : startDrain s = .refused .failedState := if_pos failed

theorem proceed_of_failed : proceed s = .refused .failedState := if_pos failed

theorem exec_of_failed {i : Instr} (hr : i ≠ .hwReset) : exec i s = .refused .failedState := by
  by_cases hd : i = .rxDrain
  · subst hd
    exact congrArg (andThen · _) (startDrain_of_failed failed)
  · obtain ⟨r, admitted⟩ := exec_eq_admission hr hd s
    rw [admitted, admission_of_failed failed]

end Failed

/-- Settles O8: admission, RX_DRAIN's own test and a phase each look at `failed` first. -/
theorem failedBlockRefusesEverything : Obligations.FailedBlockRefusesEverything := by
  unfold Obligations.FailedBlockRefusesEverything
  exact fun s failed => ⟨fun i hr => exec_of_failed failed hr, proceed_of_failed failed⟩

/-! The buffers of a construction given up (R302, U8). -/

/-- A list cut down by its keys alone. -/
theorem Assoc.lookup_filter_key {α : Type} (p : Nat → Bool) (k : Nat) (l : List (Nat × α)) :
    Assoc.lookup k (l.filter fun e => p e.1) = if p k then Assoc.lookup k l else none := by
  induction l with
  | nil => simp [Assoc.lookup]
  | cons e l ih =>
    obtain ⟨j, u⟩ := e
    by_cases here : j = k
    · subst here
      by_cases kept : p j = true <;> simp [Assoc.lookup, kept, ih]
    · by_cases kept : p j = true <;> simp [Assoc.lookup, kept, here, ih]

theorem namedBy_of_not_mem {h : Handle} {skip : Option Nat} {l : List (Option Handle)} (absent : some h ∉ l) (j : Nat) :
    namedBy h skip j l = false := by
  induction l generalizing j with
  | nil => rfl
  | cons x l ih =>
    obtain ⟨first, later⟩ := not_or.mp (List.mem_cons.not.mp absent)
    rw [namedBy, ih later, beq_eq_false_iff_ne.mpr (Ne.symm first)]
    rfl

/-- The buffer is listed still after a construction given up: no receive slot names it, or it stays with its slot. -/
def staysLive (h : Handle) (s : State) : Bool := !namedBy h none 0 s.rxBuf || Config.freeKept s.draws h

theorem bufOf_abandonBuffers (h : Handle) (s : State) :
    (abandonBuffers s).bufOf h = if staysLive h s then s.bufOf h else none := by
  have cut := Assoc.lookup_filter_key (fun k => staysLive (BitVec.ofNat 32 k) s) h.toNat s.bufs
  rwa [BitVec.ofNat_toNat, BitVec.setWidth_eq] at cut

/-- A buffer no receive slot names is left alone. -/
theorem bufOf_abandonBuffers_unnamed {h : Handle} {s : State} (unnamed : some h ∉ s.rxBuf) :
    (abandonBuffers s).bufOf h = s.bufOf h := by
  rw [bufOf_abandonBuffers, if_pos (by rw [staysLive, namedBy_of_not_mem unnamed]; rfl)]

/-- A live buffer goes to the pool or stays with its holder. -/
theorem holderOf_abandonBuffers {h : Handle} {b : Buffer} {s : State} (live : s.bufOf h = some b) :
    (abandonBuffers s).holderOf h = .pool ∨ (abandonBuffers s).holderOf h = b.holder := by
  have cut := bufOf_abandonBuffers h s
  split at cut
  · exact .inr (holderOf_of_bufOf (cut.trans live))
  · exact .inl (holderOf_of_pool cut)

/-! A construction whose ALLOC fails (R302). -/

/-- The state after the allocator answered failure, `rest` its answers to come (R186). -/
def allocRefused (rest : List (Option Grant)) (s : State) : State :=
  ({ s with allocs := rest } : State).emit (.alloc s.cfg.headroom none)

theorem bufOf_allocRefused (rest : List (Option Grant)) (h : Handle) (s : State) :
    (allocRefused rest s).bufOf h = s.bufOf h := rfl

theorem populateRx_failure {s : State} {rest : List (Option Grant)} (input : s.allocs = none :: rest) (n k i : Nat) :
    populateRx n (k + 1) i s = .next (fatal codeAllocationExhausted (abandonBuffers (allocRefused rest s))) :=
  allocThen_noGrant input

/-- Settles O28: the population loop arms a slot with each grant; the failure after them gives the construction up. -/
theorem allocationExhaustedIsFatal : Obligations.AllocationExhaustedIsFatal := by
  unfold Obligations.AllocationExhaustedIsFatal
  intro s n gs rest can unready top whole aligned placed few input ok
  obtain ⟨k, size⟩ : ∃ k, n.toNat = gs.length + (k + 1) := Nat.exists_eq_add_of_lt few
  have populated := populateRx_grants (s := rxGeometry n.toNat s) input
    (by rw [liveRegions_rxGeometry unready]; exact List.Subset.refl _) ok (k + 1) 0
  rw [← size] at populated
  have run : exec (.ringInitRx n) s =
      populateRx n.toNat (k + 1) (0 + gs.length) (armGrants 0 gs (rxGeometry n.toNat s)) :=
    (admission_of_canIssue can).trans ((construction_placed unready aligned placed).trans
      ((if_neg (Bool.not_eq_true _ ▸ malformed_of_size (by omega) top whole)).trans populated))
  have written := descsWritten_armGrants 0 gs (by omega) (rxGeometry n.toNat s)
  have other {h : Handle} (unnamed : ∀ g ∈ gs, g.handle ≠ h) := bufOf_armGrants_other unnamed 0 (rxGeometry n.toNat s)
  have held {j : Nat} {g : Grant} (hg : gs[j]? = some g) :=
    bufOf_armGrants (grantsOk_distinct ok) 0 (rxGeometry n.toNat s) hg
  obtain ⟨m, l, armed⟩ := armGrants_frame 0 gs (rxGeometry n.toNat s)
  have next : (rxGeometry n.toNat s).allocs.drop gs.length = none :: rest := by simp [rxGeometry, input]
  rw [next] at armed
  rw [armed] at run written other held
  rw [populateRx_failure rfl] at run
  refine ⟨_, run, rfl, fun i g hg => ?holder, fun h unnamed => ?buffer, fun a out => ?bytes⟩
  case holder =>
    have held := held hg
    rw [Nat.zero_add] at held
    exact holderOf_abandonBuffers ((bufOf_allocRefused rest g.handle _).trans held)
  case buffer =>
    refine (bufOf_abandonBuffers_unnamed fun named => ?_).trans ((bufOf_allocRefused rest h _).trans (other unnamed))
    obtain ⟨g, hg, same⟩ := List.mem_map.mp named
    exact unnamed g hg (Option.some.inj same)
  case bytes =>
    refine written.others a fun d hd => ?_
    rw [descAddr_zero (ringBase_rxGeometry _ s)]
    rw [List.length_map] at hd
    exact out d (by omega)

end Sys2Proof.Machine
end
